-- ==== Sys2Proof/Word.lean ====
section
/-! DEFINITION. The one word of the block: the byte of the command port (spec/00_scope.md R7, `CMD_W` = 8;
spec/20_memory.md R43: eight bits is the only access width). Bit 0 is the least significant bit (R8, R41). -/

namespace Sys2Proof

/-- A byte: a command (R51), a duty (R21) or a PWM count (R25); always unsigned (R8). -/
abbrev Byte := BitVec 8

end Sys2Proof
end

