-- ==== Sys2Proof/Config.lean ====
section
/-! DEFINITION. What is fixed when the block is built (spec/00_scope.md R7, R13): the open parameter `T`, the width
it gives the watchdog counter, and the three reset values that the spec decided. -/

namespace Sys2Proof

/-- `T - 1`. The spec leaves `T` open but for `T >= 1` (R7, R106); this number has no body, so a theorem that
mentions `Config.wdPeriod` holds for every allowed period (notes/assumptions/1.md). -/
opaque Config.wdPeriodPred : Nat

/-- `T` (`WD_TIMEOUT_TICKS`), the watchdog period in ticks: any natural number from 1 on (R106). -/
def Config.wdPeriod : Nat := Config.wdPeriodPred + 1

/-- `WD_W`, the width of the watchdog counter for period `T`: the smallest `w` with `2^w > T` (R7). -/
def Config.wdWidth (T : Nat) : Nat := Nat.log2 T + 1

/-- `DUTY_RESET`, decided as 0 (R7, R34; spec/92_eei_decisions.md D6). -/
def Config.dutyReset : Byte := 0#8

/-- `PWM_CNT_RESET`, decided as 0 (R7, R34; D7). -/
def Config.pwmCntReset : Byte := 0#8

/-- `WD_CNT_RESET`, decided as 0 (R7, R34; D7). -/
def Config.wdCntReset : Nat := 0

end Sys2Proof
end

