-- ==== Sys2Proof/Machine/State.lean ====
section
/-! DEFINITION. The state of the block, its ports, and the state after reset (spec/10_state.md). -/

namespace Sys2Proof.Machine

/-- The two motors of the pair (spec/00_scope.md R7, `N_MOTORS`). -/
inductive Motor where
  | left
  | right
  deriving DecidableEq, Repr

/-- A direction register: the ordered pair of bits `(DA, DB)` (R18). All four values are representable; that
`(1, 1)` never occurs is an invariant, not a type (R20, notes/assumptions/5.md). -/
structure DirReg where
  /-- `DA`, the first direction pin -/
  da : Bool
  /-- `DB`, the second direction pin -/
  db : Bool
  deriving DecidableEq, Repr

/-- What the input ports carry at one tick (R30); `clk` is the tick itself. -/
structure PortIn where
  /-- `rst`: synchronous reset, active high -/
  rst : Bool
  /-- `cmd_valid`: 1 when `cmd_data` holds a received command byte at this tick -/
  cmdValid : Bool
  /-- `cmd_data`: meaningful only when `cmd_valid = 1` -/
  cmdData : Byte
  deriving DecidableEq, Repr

/-- The six output pins, in the order of R31. -/
structure Pins where
  lDa : Bool
  lDb : Bool
  lEn : Bool
  rDa : Bool
  rDb : Bool
  rEn : Bool
  deriving DecidableEq, Repr

/-- The state of the block: exactly the six elements of R17 and nothing else. The period `T`, the command stream and the
host's position in it are no fields of it (spec/00_scope.md R13). -/
structure Block where
  /-- `L_DIR` (R18) -/
  lDir : DirReg
  /-- `R_DIR` (R18) -/
  rDir : DirReg
  /-- `DUTY`, shared by both motors (R21, R22) -/
  duty : Byte
  /-- `PWM_EN` (R24) -/
  pwmEn : Bool
  /-- `PWM_CNT` (R25) -/
  pwmCnt : Byte
  /-- `WD_CNT`, a natural number 0 to `T` (R26; notes/assumptions/4.md) -/
  wdCnt : Nat
  deriving DecidableEq, Repr

/-- `RESET_STATE` (R34): both motors stopped, PWM enabled, and the three decided values of R7. -/
def Block.reset : Block where
  lDir := ⟨false, false⟩
  rDir := ⟨false, false⟩
  duty := Config.dutyReset
  pwmEn := true
  pwmCnt := Config.pwmCntReset
  wdCnt := Config.wdCntReset

/-- The block and, beside it, its environment: what the two agents of R11 need for a step that takes no argument. The
block's state is `block` alone; `inputs` is the host's and no operation on the block reads or writes it
(notes/assumptions/2.md). -/
structure State where
  /-- the block's state (R17) -/
  block : Block
  /-- What the host presents at the coming ticks, the next tick's ports first; after the last entry the ports are idle.
  Environment, not state of the block (R13). -/
  inputs : List PortIn
  deriving DecidableEq, Repr

/-- The reasons the machine stops with a fault: none. Every step of the block from every state under every input
yields a next state (R12, R94, R102). -/
inductive Fault where
  deriving DecidableEq, Repr

/-- The reasons a step is refused. -/
inductive Refusal where
  /-- An instruction without a meaning, named by its mnemonic. Nothing raises it: every row of the opcode table has its
  meaning and every byte decodes (R58). Safe. -/
  | notModelled (mnemonic : String)
  deriving DecidableEq, Repr

/-- The block right after reset (R34), beside a host that has presented nothing. -/
def State.reset : State := { block := .reset, inputs := [] }

end Sys2Proof.Machine
end

