-- ==== Sys2Proof/Machine/Flags.lean ====
section
/-! DEFINITION. The block has no flags and no condition codes (spec/10_state.md R28). This file holds the two derived
predicates that R28 names; both are functions of the state, not state. -/

namespace Sys2Proof.Machine

/-- `wd_expired := (WD_CNT = T)` (R28, R104). -/
def Block.wdExpired (T : Nat) (s : Block) : Bool := s.wdCnt == T

/-- `pwm_high := (PWM_EN = 1 and PWM_CNT < DUTY)`, the comparison unsigned (R28, R32). -/
def Block.pwmHigh (s : Block) : Bool := s.pwmEn && s.pwmCnt.ult s.duty

end Sys2Proof.Machine
end

