-- ==== Sys2Proof/Syntax.lean ====
section
/-! DEFINITION. The command set: one constructor per row of spec/opcode_table.json, that is one per value of the
3-bit tag (spec/30_encoding.md R51, R53). -/

namespace Sys2Proof

/-- A command as the block executes it. The six directives of R51, then the two reserved tags, which are rows of
the table with a meaning of their own (R85, R86). The aux bits of a command other than `SetSpeed` are never looked
at (R60), so they are no operand. -/
inductive Instr where
  /-- tag 000, R70 -/
  | forward
  /-- tag 001, R71 -/
  | backward
  /-- tag 010, R72 -/
  | left
  /-- tag 011, R73 -/
  | right
  /-- tag 100, R74 -/
  | stop
  /-- tag 101, R81. `v` is the host's 8-bit operand "0 to 255" (R51); only its top five bits are packed (R55). -/
  | setSpeed (v : Byte)
  /-- tag 110, R85 -/
  | reserved6
  /-- tag 111, R86 -/
  | reserved7
  deriving DecidableEq, Repr

end Sys2Proof
end

