-- ==== Sys2Proof/WellFormed.lean ====
section
/-! DEFINITION. Which commands are spelled by a byte exactly as they stand. -/

namespace Sys2Proof

/-- A `SetSpeed` whose operand has its low three bits clear is the one a byte carries: the packing drops those bits
(spec/30_encoding.md R55), so `SetSpeed v` with other low bits is another name for `SetSpeed (v & 0xF8)` (R65 item 1).
Every other command has no operand and nothing to check. -/
def Instr.wellFormed : Instr → Bool
  | .forward => true
  | .backward => true
  | .left => true
  | .right => true
  | .stop => true
  | .setSpeed v => v &&& 0b0000_0111#8 == 0#8
  | .reserved6 => true
  | .reserved7 => true

end Sys2Proof
end

