-- ==== Sys2Proof/Decode.lean ====
section
/-! DEFINITION. Format `C8` (spec/30_encoding.md R52): the tag and aux fields, the decoder (R53, R56 to R58), the
opcode table as rows of mask and pattern, and the encoder (R54, R55). No byte is refused (R58, R61). -/

namespace Sys2Proof

/-- `tag(b) = b[2:0]` (R52, R56). -/
def tag (b : Byte) : BitVec 3 := b.extractLsb' 0 3

/-- `aux(b) = b[7:3]` (R52). -/
def aux (b : Byte) : BitVec 5 := b.extractLsb' 3 5

/-- `b & 0b1111_1000`: the byte with its low three bits cleared, which is how both the encoder keeps the top of a
speed (R55) and the decoder takes the duty (R57). -/
def speedBits (b : Byte) : Byte := b &&& 0b1111_1000#8

/-- The command a byte selects: its low three bits alone choose the row (R53, R56), and for tag 101 the operand is the
rest of the byte in place (R57). All eight tags are listed, none by default (R58, R92). -/
def decode (b : Byte) : Instr :=
  match tag b with
  | 0b000#3 => .forward
  | 0b001#3 => .backward
  | 0b010#3 => .left
  | 0b011#3 => .right
  | 0b100#3 => .stop
  | 0b101#3 => .setSpeed (speedBits b)
  | 0b110#3 => .reserved6
  | 0b111#3 => .reserved7

/-- One row of spec/opcode_table.json: a byte is the row's command when its masked bits are the pattern. -/
structure OpcodeRow where
  mnemonic : String
  mask : Byte
  pattern : Byte
  deriving DecidableEq, Repr

/-- The byte spells the row's command. -/
def OpcodeRow.covers (r : OpcodeRow) (b : Byte) : Bool := b &&& r.mask == r.pattern

/-- The row of spec/opcode_table.json a command belongs to (R53). -/
def Instr.row : Instr → OpcodeRow
  | .forward => ⟨"Forward", 0x07#8, 0x00#8⟩
  | .backward => ⟨"Backward", 0x07#8, 0x01#8⟩
  | .left => ⟨"Left", 0x07#8, 0x02#8⟩
  | .right => ⟨"Right", 0x07#8, 0x03#8⟩
  | .stop => ⟨"Stop", 0x07#8, 0x04#8⟩
  | .setSpeed _ => ⟨"SetSpeed", 0x07#8, 0x05#8⟩
  | .reserved6 => ⟨"Reserved6", 0x07#8, 0x06#8⟩
  | .reserved7 => ⟨"Reserved7", 0x07#8, 0x07#8⟩

/-- The whole table, in its order. -/
def opcodeTable : List OpcodeRow :=
  [Instr.forward, .backward, .left, .right, .stop, .setSpeed 0#8, .reserved6, .reserved7].map Instr.row

/-- The byte that spells a command: R54 for the six directives, with aux 0 where there is no operand, and the
`Byte 0x06` and `Byte 0x07` of R63 and R85, R86 for the reserved tags, which no host encoder sends. -/
def encode : Instr → Byte
  | .forward => 0b0000_0000#8
  | .backward => 0b0000_0001#8
  | .left => 0b0000_0010#8
  | .right => 0b0000_0011#8
  | .stop => 0b0000_0100#8
  | .setSpeed v => speedBits v ||| 0b0000_0101#8
  | .reserved6 => 0b0000_0110#8
  | .reserved7 => 0b0000_0111#8

/-- One of the six directives a host can ask for (R51); the reserved tags are none of them (R59). -/
def Instr.isDirective : Instr → Bool
  | .forward => true
  | .backward => true
  | .left => true
  | .right => true
  | .stop => true
  | .setSpeed _ => true
  | .reserved6 => false
  | .reserved7 => false

/-- What a conforming host's encoder answers: total on the six directives (R54), never a reserved tag (R59). -/
def hostEncode (i : Instr) : Option Byte := if i.isDirective then some (encode i) else none

/-- The command in an instruction whose bits are `w`, `nbits` of them given by the table and the rest 0. Every command
is one byte (R51), so more than eight given bits are no single command. -/
def decodeTableWord (nbits w : Nat) : Option Instr :=
  if nbits ≤ 8 then some (decode (BitVec.ofNat 8 (w % 2 ^ nbits))) else none

end Sys2Proof
end

