-- ==== Sys2Proof/Machine/Operands.lean ====
section
/-! DEFINITION. The operand forms of the commands. There are two: none (Forward, Backward, Left, Right, Stop and the
reserved tags, whose aux field is ignored, spec/30_encoding.md R60) and the 5-bit aux field of SetSpeed. Beside them
the constants the direction commands write (spec/10_state.md R19). -/

namespace Sys2Proof.Machine

/-- The duty a `SetSpeed v` writes: `v` rounded down to a multiple of 8 (spec/41_speed_command.md R81, R82). The byte's
own `{b[7:3], 0b000}` is the same for every `v` that packs to that byte (R57). -/
def dutyOperand (v : Byte) : Byte := speedBits v

/-- stopped, `(0, 0)` (R19) -/
def DirReg.stopped : DirReg := ⟨false, false⟩

/-- forward, `(0, 1)` (R19) -/
def DirReg.forward : DirReg := ⟨false, true⟩

/-- backward, `(1, 0)` (R19) -/
def DirReg.backward : DirReg := ⟨true, false⟩

end Sys2Proof.Machine
end

