-- ==== Sys2Proof/Machine/Ops.lean ====
section
/-! DEFINITION. The named operations on the block's registers: the motor primitives, the watchdog, the PWM count, the
tick that orders them, the ports. There is no memory to operate on (spec/20_memory.md R37). -/

namespace Sys2Proof.Machine

/-- Write one direction register. -/
def Block.setDir (m : Motor) (d : DirReg) (s : Block) : Block :=
  match m with
  | .left => { s with lDir := d }
  | .right => { s with rDir := d }

/-- `forward(m)`: `m <- (0, 1)` (spec/40_motor_and_direction.md R67). -/
def Block.forwardMotor (m : Motor) (s : Block) : Block := s.setDir m .forward

/-- `backward(m)`: `m <- (1, 0)` (R68). -/
def Block.backwardMotor (m : Motor) (s : Block) : Block := s.setDir m .backward

/-- `stop(m)`: `m <- (0, 0)`; the enable waveform is left alone (R69). -/
def Block.stopMotor (m : Motor) (s : Block) : Block := s.setDir m .stopped

/-- `set_speed(d)`: `DUTY <- d`, at once and for both motors (spec/41_speed_command.md R80). -/
def Block.writeDuty (d : Byte) (s : Block) : Block := { s with duty := d }

/-- Phase 1 of a tick, the watchdog count (spec/60_exceptions.md R107): 0 on a kick, else one more, saturating at `T`. -/
def Block.countWatchdog (T : Nat) (kick : Bool) (s : Block) : Block :=
  { s with wdCnt := if kick then 0 else min (s.wdCnt + 1) T }

/-- Phase 3, the watchdog action (R110): with the new count at `T` both motors are stopped. This is the block's one
event beside commands and reset, and it saves nothing (R113); the way out is a kick or reset (R114). -/
def Block.watchdogAction (T : Nat) (s : Block) : Block :=
  if s.wdExpired T then (s.stopMotor .left).stopMotor .right else s

/-- Phase 4, the PWM count: one more, from 255 to 0 (spec/43_tick_step_and_pwm.md R95). -/
def Block.countPwm (s : Block) : Block := { s with pwmCnt := s.pwmCnt + 1#8 }

/-- One tick without reset, in the phase order of R90: the watchdog counts, the command acts, the watchdog stops the
motors if the new count is `T`, the PWM counter counts. `act` is what the tick's command writes. -/
def Block.tick (T : Nat) (kick : Bool) (act : Block → Block) (s : Block) : Block :=
  ((act (s.countWatchdog T kick)).watchdogAction T).countPwm

/-- A tick that presents no byte (R93). -/
def Block.idleTick (T : Nat) (s : Block) : Block := s.tick T false id

/-- A tick with `rst = 1`: the reset state, whatever the state and the command were (spec/70_reset_and_hazards.md R124). -/
def Block.resetTick (_ : Block) : Block := .reset

/-- `cmd` of a tick (spec/10_state.md R30): the data when it is valid, else nothing whatever the data. -/
def PortIn.cmd (p : PortIn) : Option Byte := if p.cmdValid then some p.cmdData else none

/-- The ports of a silent host: no reset and no byte. -/
def PortIn.idle : PortIn := ⟨false, false, 0#8⟩

/-- The ports while a byte is presented (R30): one tick of `cmd_valid` is one received byte (R134). -/
def PortIn.byte (b : Byte) : PortIn := ⟨false, true, b⟩

/-- The ports while reset is asserted. -/
def PortIn.reset : PortIn := ⟨true, false, 0#8⟩

/-- The ports at the coming tick; a host that has nothing more to present is silent (notes/assumptions/2.md). -/
def State.portIn (s : State) : PortIn := s.inputs.headD .idle

/-- The coming tick's inputs are consumed: they leave no trace but their effect (spec/10_state.md R36). -/
def State.consume (s : State) : State := { s with inputs := s.inputs.tail }

/-- The host presents byte `b` at the coming tick, in place of what it would have presented. -/
def State.presentByte (b : Byte) (s : State) : State := { s with inputs := .byte b :: s.inputs.tail }

/-- One tick of the block, its environment left alone. -/
def State.onBlock (f : Block → Block) (s : State) : State := { s with block := f s.block }

/-- The output equations (R32): a function of the block's current state alone. -/
def Block.pins (s : Block) : Pins where
  lDa := s.lDir.da
  lDb := s.lDir.db
  lEn := s.pwmHigh
  rDa := s.rDir.da
  rDb := s.rDir.db
  rEn := s.pwmHigh

end Sys2Proof.Machine
end

