-- ==== Sys2Proof/Machine/Direction.lean ====
section
/-! DEFINITION. The direction commands (spec/40_motor_and_direction.md). Each command has its tick for a given watchdog
period `T`, and its meaning, which is that tick at the block's own period. Four of the five kick the watchdog (R77). -/

namespace Sys2Proof.Machine

/-- `Forward` (R70): `forward(L_DIR); forward(R_DIR)`; kicks. -/
def forwardTick (T : Nat) (s : Block) : Block :=
  s.tick T true fun s => (s.forwardMotor .left).forwardMotor .right

/-- `Forward` at the block's period. -/
def execForward (s : State) : Host.Outcome State Fault Refusal := .next (s.onBlock (forwardTick Config.wdPeriod))

/-- `Backward` (R71): `backward(L_DIR); backward(R_DIR)`; kicks. -/
def backwardTick (T : Nat) (s : Block) : Block :=
  s.tick T true fun s => (s.backwardMotor .left).backwardMotor .right

/-- `Backward` at the block's period. -/
def execBackward (s : State) : Host.Outcome State Fault Refusal := .next (s.onBlock (backwardTick Config.wdPeriod))

/-- `Left` (R72): `backward(L_DIR); forward(R_DIR)`; kicks. -/
def leftTick (T : Nat) (s : Block) : Block :=
  s.tick T true fun s => (s.backwardMotor .left).forwardMotor .right

/-- `Left` at the block's period. -/
def execLeft (s : State) : Host.Outcome State Fault Refusal := .next (s.onBlock (leftTick Config.wdPeriod))

/-- `Right` (R73): `forward(L_DIR); backward(R_DIR)`; kicks. -/
def rightTick (T : Nat) (s : Block) : Block :=
  s.tick T true fun s => (s.forwardMotor .left).backwardMotor .right

/-- `Right` at the block's period. -/
def execRight (s : State) : Host.Outcome State Fault Refusal := .next (s.onBlock (rightTick Config.wdPeriod))

/-- `Stop` (R74): `stop(L_DIR); stop(R_DIR)`; does not kick. -/
def stopTick (T : Nat) (s : Block) : Block :=
  s.tick T false fun s => (s.stopMotor .left).stopMotor .right

/-- `Stop` at the block's period. -/
def execStop (s : State) : Host.Outcome State Fault Refusal := .next (s.onBlock (stopTick Config.wdPeriod))

end Sys2Proof.Machine
end

