-- ==== Sys2Proof/Machine/Reserved.lean ====
section
/-! DEFINITION. The reserved tags (spec/42_reserved_commands.md): no-ops that do not kick the watchdog (R87), so their
ticks still count and still expire. -/

namespace Sys2Proof.Machine

/-- Tag 110 (R85): nothing is written by the command. -/
def reserved6Tick (T : Nat) (s : Block) : Block := s.tick T false fun s => s

/-- Tag 110 at the block's period. -/
def execReserved6 (s : State) : Host.Outcome State Fault Refusal := .next (s.onBlock (reserved6Tick Config.wdPeriod))

/-- Tag 111 (R86): nothing is written by the command. -/
def reserved7Tick (T : Nat) (s : Block) : Block := s.tick T false fun s => s

/-- Tag 111 at the block's period. -/
def execReserved7 (s : State) : Host.Outcome State Fault Refusal := .next (s.onBlock (reserved7Tick Config.wdPeriod))

end Sys2Proof.Machine
end

