-- ==== Sys2Proof/Machine/Speed.lean ====
section
/-! DEFINITION. The speed command (spec/41_speed_command.md). -/

namespace Sys2Proof.Machine

/-- `SetSpeed(v)` (R81): `DUTY <- v & 0xF8`; kicks, also with duty 0 and while the motors are stopped. -/
def setSpeedTick (T : Nat) (v : Byte) (s : Block) : Block :=
  s.tick T true fun s => s.writeDuty (dutyOperand v)

/-- `SetSpeed` at the block's period. -/
def execSetSpeed (v : Byte) (s : State) : Host.Outcome State Fault Refusal := .next (s.onBlock (setSpeedTick Config.wdPeriod v))

end Sys2Proof.Machine
end

