-- ==== Sys2Proof/Machine/Dispatch.lean ====
section
/-! DEFINITION. The dispatch: each command to its meaning (spec/43_tick_step_and_pwm.md R92). -/

namespace Sys2Proof.Machine

def exec (i : Instr) (s : State) : Host.Outcome State Fault Refusal :=
  match i with
  | .forward => Sys2Proof.Machine.execForward s
  | .backward => Sys2Proof.Machine.execBackward s
  | .left => Sys2Proof.Machine.execLeft s
  | .right => Sys2Proof.Machine.execRight s
  | .stop => Sys2Proof.Machine.execStop s
  | .setSpeed v => Sys2Proof.Machine.execSetSpeed v s
  | .reserved6 => Sys2Proof.Machine.execReserved6 s
  | .reserved7 => Sys2Proof.Machine.execReserved7 s

end Sys2Proof.Machine
end

