-- ==== Sys2Proof/Machine/Step.lean ====
section
/-! DEFINITION. One step of the machine: one tick with the inputs the host presents at it (spec/43_tick_step_and_pwm.md
R90). -/

namespace Sys2Proof.Machine

/-- One tick. Reset wins over the command (spec/70_reset_and_hazards.md R124); with no byte it is the idle tick (R93);
a byte is decoded and its command executed in the tick that presents it (spec/20_memory.md R43, R45). -/
def step (s : State) : Host.Outcome State Fault Refusal :=
  if s.portIn.rst then .next (s.consume.onBlock Block.resetTick)
  else match s.portIn.cmd with
    | none => .next (s.consume.onBlock (Block.idleTick Config.wdPeriod))
    | some b => exec (decode b) s.consume

/-- `s` with the host presenting, at the very next tick, the command byte whose `nbits` table bits are `w`, the bits above
them 0 (notes/assumptions/3.md says how a program comes to run). A command is one byte, so only bits 7..0 are presented. -/
def State.withFetchWord (s : State) (nbits w : Nat) : State := s.presentByte (BitVec.ofNat 8 (w % 2 ^ nbits))

end Sys2Proof.Machine
end

