-- ==== Sys2Proof/Machine/TickFunction.lean ====
section
/-! DEFINITION. The tick as the spec writes it: one function `step(T, S, rst, cmd)` of the period, the state and the two
inputs (spec/43_tick_step_and_pwm.md R90, R92), transcribed line by line. The machine's `step` is built from the
operations of Ops instead; that the two agree is a statement of the certificates. -/

namespace Sys2Proof.Machine

/-- The kick set (spec/60_exceptions.md R108): tags 0, 1, 2, 3 and 5. -/
def kickTag (b : Byte) : Bool := [0, 1, 2, 3, 5].contains (b &&& 0x07#8).toNat

/-- `exec(cmd, l, r, d)` of R92: the motor registers after the command of the tick. -/
def dispatchCmd (cmd : Option Byte) (l r : DirReg) (d : Byte) : DirReg × DirReg × Byte :=
  match cmd with
  | none => (l, r, d)
  | some b =>
    match tag b with
    | 0#3 => (⟨false, true⟩, ⟨false, true⟩, d)
    | 1#3 => (⟨true, false⟩, ⟨true, false⟩, d)
    | 2#3 => (⟨true, false⟩, ⟨false, true⟩, d)
    | 3#3 => (⟨false, true⟩, ⟨true, false⟩, d)
    | 4#3 => (⟨false, false⟩, ⟨false, false⟩, d)
    | 5#3 => (l, r, b &&& 0b1111_1000#8)
    | 6#3 => (l, r, d)
    | 7#3 => (l, r, d)

/-- R90 with the kick set left as an argument, so that the variant of R109 (a `Stop` that kicks) can be stated. -/
def tickWithKicks (kicks : Byte → Bool) (T : Nat) (S : Block) (rst : Bool) (cmd : Option Byte) : Block :=
  if rst then Block.reset
  else
    let kick : Bool := match cmd with
      | none => false
      | some b => kicks b
    let wd' := if kick then 0 else min (S.wdCnt + 1) T
    let (l1, r1, d1) := dispatchCmd cmd S.lDir S.rDir S.duty
    let l2 := if wd' = T then (⟨false, false⟩ : DirReg) else l1
    let r2 := if wd' = T then (⟨false, false⟩ : DirReg) else r1
    let c' := BitVec.ofNat 8 ((S.pwmCnt.toNat + 1) % 256)
    { lDir := l2, rDir := r2, duty := d1, pwmEn := S.pwmEn, pwmCnt := c', wdCnt := wd' }

/-- `step(T, S, rst, cmd)` of R90. -/
def blockStep (T : Nat) (S : Block) (rst : Bool) (cmd : Option Byte) : Block := tickWithKicks kickTag T S rst cmd

end Sys2Proof.Machine
end

