-- ==== Sys2Proof/Safety.lean ====
section
/-! DEFINITION. The terms in which claims about runs are stated: the state after some ticks, quiet inputs, the legal
values of the direction pair, the invariant of the reachable states, and the relation of `T` to real time. -/

namespace Sys2Proof.Machine

/-- The state after `n` ticks (spec/43_tick_step_and_pwm.md R94), the host presenting what the state's inputs say. A
step always answers a next state, so the other outcomes, where the state would just stand still, never happen; that too
is a statement of the certificates. -/
def State.after : Nat → State → State
  | 0, s => s
  | n + 1, s =>
    match step s with
    | .next t => t.after n
    | _ => s

/-- The ports at tick `k` from now, `k = 0` the coming tick. -/
def State.inputAt (s : State) (k : Nat) : PortIn := s.inputs.getD k .idle

/-- The tick kicks the watchdog (spec/60_exceptions.md R108): no reset, and a byte with tag 0, 1, 2, 3 or 5. -/
def PortIn.kicks (p : PortIn) : Bool :=
  !p.rst && match p.cmd with
    | none => false
    | some b => kickTag b

/-- The tick presents no reset and no kicking byte (spec/60_exceptions.md R111, R123). -/
def PortIn.quiet (p : PortIn) : Bool := !p.rst && !p.kicks

/-- The next `n` ticks are quiet. -/
def State.QuietFor (s : State) (n : Nat) : Prop := ∀ k < n, (s.inputAt k).quiet = true

/-- The next `n` ticks present no reset. -/
def State.NoResetFor (s : State) (n : Nat) : Prop := ∀ k < n, (s.inputAt k).rst = false

/-- The next `n` ticks present no reset and no byte with a tag in `tags`. -/
def State.NoTagFor (s : State) (tags : List (BitVec 3)) (n : Nat) : Prop :=
  ∀ k < n, (s.inputAt k).rst = false ∧ ∀ b ∈ (s.inputAt k).cmd, tag b ∉ tags

/-- Both direction registers are `(0, 0)`. -/
def Block.Stopped (s : Block) : Prop := s.lDir = .stopped ∧ s.rDir = .stopped

/-- The four direction pins are low. -/
def Pins.DirectionLow (p : Pins) : Prop := p.lDa = false ∧ p.lDb = false ∧ p.rDa = false ∧ p.rDb = false

/-- The pair `(L_DIR, R_DIR)` is one of the five rows of spec/40_motor_and_direction.md R75. -/
def Block.LegalPair (s : Block) : Prop :=
  (s.lDir, s.rDir) ∈
    ([(.forward, .forward), (.backward, .backward), (.backward, .forward), (.forward, .backward),
      (.stopped, .stopped)] : List (DirReg × DirReg))

/-- The invariant of the reachable states (spec/10_state.md R35), items (a) to (g). -/
structure Block.Inv (T : Nat) (s : Block) : Prop where
  /-- (a) and (b): neither register is `(1, 1)` and the pair is one of five -/
  pair : s.LegalPair
  /-- (c): the duty is a multiple of 8 -/
  duty : s.duty &&& 0x07#8 = 0#8
  /-- (d) -/
  enabled : s.pwmEn = true
  /-- (e) -/
  count : s.wdCnt ≤ T
  /-- (f): the fail-safe -/
  failSafe : s.wdCnt = T → s.Stopped
  /-- (g) -/
  enables : s.pins.lEn = s.pins.rEn

/-- The ports at the next `n` ticks, the coming tick's first. -/
def State.inputsFor (s : State) (n : Nat) : List PortIn := (List.range n).map s.inputAt

/-- The run of R94 from a given state of the block: the fold of the tick function of R90 over the host's input sequence, at
period `T` and with a given kick set. -/
def Block.runFunction (kicks : Byte → Bool) (T : Nat) (S : Block) (ins : List PortIn) : Block :=
  ins.foldl (fun S p => tickWithKicks kicks T S p.rst p.cmd) S

/-- The kick set of the variant that R109 compares with: `Stop` (tag 4) kicks too. -/
def kickTagOrStop (b : Byte) : Bool := kickTag b || tag b == 4#3

/-- The kick set of the reading that R87 rejects: every received byte kicks. -/
def kickAnyByte (_ : Byte) : Bool := true

/-- How many of the `n` states from `s` on, `s` the first, have the left enable pin high. -/
def State.enableHighCount (s : State) (n : Nat) : Nat :=
  ((List.range n).filter fun k => (s.after k).block.pins.lEn).length

/-- `T` is the period that a tick frequency of `fTick` hertz intends: `round(0.5 * F_TICK)`, so a natural number at least
1 nearest to half the frequency (spec/00_scope.md R7, spec/60_exceptions.md R106). The spec does not say which way a
tie rounds; both neighbours satisfy the relation (notes/assumptions/10.md). -/
def RealTimePeriod (fTick : ℚ) (T : Nat) : Prop := 0 < fTick ∧ 1 ≤ T ∧ |(T : ℚ) - fTick / 2| ≤ 1 / 2

end Sys2Proof.Machine
end

