-- ==== Sys2Proof/Certificates/Slice0/Obligations.lean ====
section
/-! DEFINITION. What is stated about the machine, rule by rule of spec/. Statements about runs speak of `step` through
`State.after`; the block's period is `Config.wdPeriod`, of which nothing is known but that it is at least 1. A statement
that rests on one of the spec's own decisions (D1 to D21 of spec/92_eei_decisions.md), or on a choice of the model, says
so in its docstring. -/

open Sys2Proof Sys2Proof.Machine

/-! ## Encoding -/

/-- R52: format C8 is `aaaaattt`, the tag the low three bits, the aux field the high five, and aux is used for
`SetSpeed` only: with any other tag two bytes of one tag are the same command. -/
def Obligations.FormatSplitsByteIntoAuxAndTag : Prop :=
  ∀ b : Byte,
    (∀ i < 3, (tag b).getLsbD i = b.getLsbD i) ∧
    (∀ i < 5, (aux b).getLsbD i = b.getLsbD (i + 3)) ∧
    aux b ++ tag b = b ∧
    ∀ b' : Byte, tag b' = tag b → tag b ≠ 5#3 → decode b' = decode b

/-- R53, the map of the tags, column by column: the command a tag selects with aux ignored (or, for tag 5, giving the
duty), the aux bits on encode, and that no encoder sends a reserved tag. R56: the low three bits alone select the row, and
`decode_tag(encode(c)) = tag(c)` for every command `c`. -/
def Obligations.TagAloneSelectsTheCommand : Prop :=
  (∀ b : Byte,
    (b &&& 7#8 = 0#8 → decode b = .forward) ∧
    (b &&& 7#8 = 1#8 → decode b = .backward) ∧
    (b &&& 7#8 = 2#8 → decode b = .left) ∧
    (b &&& 7#8 = 3#8 → decode b = .right) ∧
    (b &&& 7#8 = 4#8 → decode b = .stop) ∧
    (b &&& 7#8 = 5#8 → decode b = .setSpeed (b &&& 0b1111_1000#8)) ∧
    (b &&& 7#8 = 6#8 → decode b = .reserved6) ∧
    (b &&& 7#8 = 7#8 → decode b = .reserved7)) ∧
  (∀ b b' : Byte, b &&& 7#8 = b' &&& 7#8 → (decode b).row = (decode b').row) ∧
  (∀ i : Instr, encode i &&& 7#8 = i.row.pattern) ∧
  (∀ i ∈ [Instr.forward, .backward, .left, .right, .stop], aux (encode i) = 0b00000#5) ∧
  (∀ v : Byte, aux (encode (.setSpeed v)) = v.extractLsb' 3 5) ∧
  hostEncode .reserved6 = none ∧ hostEncode .reserved7 = none

/-- R55: bits [7:3] of a `SetSpeed` byte are those of the operand and its low three bits are dropped, with no sign, no
scale and no rounding but down to a multiple of 8; so there are 32 distinct bytes `0x05, 0x0D, ..., 0xFD` and 32 levels
0, 8, ..., 248. R57: for tag 101 the decoder takes the duty in place, `b & 0xF8`, which is `aux(b) << 3`, low three bits
0; the byte `0x85` gives 128. -/
def Obligations.SpeedKeepsItsTopFiveBitsInPlace : Prop :=
  (∀ v : Byte,
    (encode (.setSpeed v)).extractLsb' 3 5 = v.extractLsb' 3 5 ∧
    encode (.setSpeed v) &&& 0b1111_1000#8 = v &&& 0b1111_1000#8 ∧
    (encode (.setSpeed v)).toNat = 8 * (v.toNat / 8) + 5 ∧
    (dutyOperand v).toNat = 8 * (v.toNat / 8)) ∧
  (∀ n : Nat, (∃ v : Byte, (encode (.setSpeed v)).toNat = n) ↔ ∃ k < 32, n = 8 * k + 5) ∧
  (∀ n : Nat, (∃ v : Byte, (dutyOperand v).toNat = n) ↔ ∃ k < 32, n = 8 * k) ∧
  (∀ b : Byte, tag b = 5#3 →
    decode b = .setSpeed (b &&& 0b1111_1000#8) ∧
    b &&& 0b1111_1000#8 = (aux b).zeroExtend 8 <<< 3 ∧
    (b &&& 0b1111_1000#8) &&& 7#8 = 0#8) ∧
  decode 0b1000_0101#8 = .setSpeed 128#8

/-- The bytes of the six directives, and that the host's encoder is total on them. The aux bits 0 of Backward, Left, Right
and Stop are the spec's decision D14. -/
def Obligations.DirectivesHaveTheirBytes : Prop :=
  hostEncode .forward = some 0x00#8 ∧
  hostEncode .backward = some 0x01#8 ∧
  hostEncode .left = some 0x02#8 ∧
  hostEncode .right = some 0x03#8 ∧
  hostEncode .stop = some 0x04#8 ∧
  ∀ v : Byte, hostEncode (.setSpeed v) = some ((v &&& 0xF8#8) ||| 0x05#8)

/-- Decode and encode agree in every direction they can. A well-formed command comes back from its byte and two
well-formed commands never share a byte; a `SetSpeed` of any operand comes back rounded down to a multiple of 8; every byte
decodes to a well-formed command, whose own byte has the same tag, the same aux field for `SetSpeed` and aux 0 for the rest.
Rests on the spec's decision D14 for aux 0, and on the model's `Byte 0x06` and `Byte 0x07` for the reserved tags
(notes/assumptions/7.md). -/
def Obligations.DecodeAndEncodeAgree : Prop :=
  (∀ i : Instr, i.wellFormed = true → decode (encode i) = i) ∧
  (∀ i j : Instr, i.wellFormed = true → j.wellFormed = true → encode i = encode j → i = j) ∧
  (∀ v : Byte, decode (encode (.setSpeed v)) = .setSpeed (dutyOperand v)) ∧
  (∀ b : Byte, (decode b).wellFormed = true ∧ tag (encode (decode b)) = tag b ∧
    aux (encode (decode b)) = if tag b = 5#3 then aux b else 0#5)

/-- Decoding is total and even (R58, which the spec derives): every byte is covered by exactly one row of the opcode table,
the row of the command it decodes to, and each tag has 32 of the 256 bytes. -/
def Obligations.EveryByteIsOneRowAndTagsAreEven : Prop :=
  (∀ b : Byte, opcodeTable.filter (fun r => r.covers b) = [(decode b).row]) ∧
  ∀ k : BitVec 3, ((List.range 256).filter fun n => tag (BitVec.ofNat 8 n) == k).length = 32

/-- Bytes of spec/95_test_vectors.md, written out, decode to their commands. -/
def Obligations.WrittenOutBytesDecode : Prop :=
  decode 0b0000_0000#8 = .forward ∧ decode 0b1111_1000#8 = .forward ∧ decode 0b0000_0001#8 = .backward ∧
  decode 0b0000_0010#8 = .left ∧ decode 0b1010_1011#8 = .right ∧ decode 0b0000_1100#8 = .stop ∧
  decode 0b0100_0101#8 = .setSpeed 64#8 ∧ decode 0b1111_1101#8 = .setSpeed 248#8 ∧
  decode 0b1111_1110#8 = .reserved6 ∧ decode 0b1111_1111#8 = .reserved7 ∧
  decodeTableWord 8 0b1000_0101 = some (.setSpeed 128#8)

/-! ## The primitives -/

/-- R67, R68, R69: each primitive writes its constant to the one direction register named, whatever that register held, and
nothing else; `stop` leaves the duty, the PWM enable and the PWM count, hence the enable pins, alone. -/
def Obligations.MotorPrimitivesWriteOneRegister : Prop :=
  ∀ s : Block,
    s.forwardMotor .left = { s with lDir := ⟨false, true⟩ } ∧
    s.forwardMotor .right = { s with rDir := ⟨false, true⟩ } ∧
    s.backwardMotor .left = { s with lDir := ⟨true, false⟩ } ∧
    s.backwardMotor .right = { s with rDir := ⟨true, false⟩ } ∧
    s.stopMotor .left = { s with lDir := ⟨false, false⟩ } ∧
    s.stopMotor .right = { s with rDir := ⟨false, false⟩ } ∧
    ∀ m, (s.stopMotor m).pins.lEn = s.pins.lEn ∧ (s.stopMotor m).pins.rEn = s.pins.rEn

/-- The output equations R32 (the spec's decision D4 for the comparison and D21 for one waveform on both enable pins): the
pins are the direction registers and, on both enable pins, `PWM_EN = 1 and PWM_CNT < DUTY` as unsigned numbers. -/
def Obligations.OutputEquationsReadTheState : Prop :=
  ∀ s : Block,
    s.pins.lDa = s.lDir.da ∧ s.pins.lDb = s.lDir.db ∧ s.pins.rDa = s.rDir.da ∧ s.pins.rDb = s.rDir.db ∧
    s.pins.lEn = s.pins.rEn ∧ (s.pins.lEn = true ↔ s.pwmEn = true ∧ s.pwmCnt.toNat < s.duty.toNat)

/-- R80 (the spec's decision D5 for when it shows): `set_speed(d)` writes the shared duty and nothing else, and after a `SetSpeed`
tick both enable pins compare the new duty with the PWM count that went on counting, with no wait for a period boundary. -/
def Obligations.NewDutyShowsAtOnceOnBothEnablePins : Prop :=
  (∀ (b : Block) (d : Byte), b.writeDuty d = { b with duty := d }) ∧
  ∀ (s : State) (v : Byte), ∃ t, exec (.setSpeed v) s = .next t ∧
    (t.block.pins.lEn = true ↔ s.block.pwmEn = true ∧ (s.block.pwmCnt.toNat + 1) % 256 < (v &&& 0xF8#8).toNat) ∧
    t.block.pins.rEn = t.block.pins.lEn

/-! ## The commands -/

/-- R70. Any byte `b` with `b & 0x07 = 0` is `Forward`, canonically `0x00`. From every state it completes: both motors
forward, duty and PWM enable unchanged, the watchdog kicked. So it wins over an expiry at its tick, repeating it changes no
motor register, and with duty 0 the enable pins are low. From reset the direction pins are 0,1,0,1. -/
def Obligations.ForwardDrivesBothMotorsForward : Prop :=
  (∀ b : Byte, b &&& 0x07#8 = 0#8 → decode b = .forward) ∧ encode .forward = 0x00#8 ∧
  (∀ s : State, ∃ t, exec .forward s = .next t ∧
    t.block.lDir = ⟨false, true⟩ ∧ t.block.rDir = ⟨false, true⟩ ∧ t.block.duty = s.block.duty ∧
    t.block.pwmEn = s.block.pwmEn ∧ t.block.wdCnt = 0 ∧
    (s.block.duty = 0#8 → t.block.pins.lEn = false ∧ t.block.pins.rEn = false) ∧
    ∃ u, exec .forward t = .next u ∧ u.block.lDir = t.block.lDir ∧ u.block.rDir = t.block.rDir ∧
      u.block.duty = t.block.duty ∧ u.block.pwmEn = t.block.pwmEn ∧
      u.block.wdCnt = t.block.wdCnt) ∧
  ∃ t, exec .forward State.reset = .next t ∧
    (t.block.pins.lDa, t.block.pins.lDb, t.block.pins.rDa, t.block.pins.rDb) = (false, true, false, true)

/-- R71. Any byte `b` with `b & 0x07 = 1` is `Backward`, canonically `0x01`. From every state it completes: both motors
backward, duty and PWM enable unchanged, the watchdog kicked; corner cases as for `Forward`. From reset the direction pins
are 1,0,1,0. -/
def Obligations.BackwardDrivesBothMotorsBackward : Prop :=
  (∀ b : Byte, b &&& 0x07#8 = 1#8 → decode b = .backward) ∧ encode .backward = 0x01#8 ∧
  (∀ s : State, ∃ t, exec .backward s = .next t ∧
    t.block.lDir = ⟨true, false⟩ ∧ t.block.rDir = ⟨true, false⟩ ∧ t.block.duty = s.block.duty ∧
    t.block.pwmEn = s.block.pwmEn ∧ t.block.wdCnt = 0 ∧
    (s.block.duty = 0#8 → t.block.pins.lEn = false ∧ t.block.pins.rEn = false) ∧
    ∃ u, exec .backward t = .next u ∧ u.block.lDir = t.block.lDir ∧ u.block.rDir = t.block.rDir ∧
      u.block.duty = t.block.duty ∧ u.block.pwmEn = t.block.pwmEn ∧
      u.block.wdCnt = t.block.wdCnt) ∧
  ∃ t, exec .backward State.reset = .next t ∧
    (t.block.pins.lDa, t.block.pins.lDb, t.block.pins.rDa, t.block.pins.rDb) = (true, false, true, false)

/-- R72. Any byte `b` with `b & 0x07 = 2` is `Left`, canonically `0x02`. From every state it completes: left motor backward,
right motor forward, the one shared duty and PWM enable unchanged, the watchdog kicked. After `Right` it reverses both
motors in the one tick. From reset the direction pins are 1,0,0,1. -/
def Obligations.LeftTurnsOnTheSpot : Prop :=
  (∀ b : Byte, b &&& 0x07#8 = 2#8 → decode b = .left) ∧ encode .left = 0x02#8 ∧
  (∀ s : State, ∃ t, exec .left s = .next t ∧
    t.block.lDir = ⟨true, false⟩ ∧ t.block.rDir = ⟨false, true⟩ ∧ t.block.duty = s.block.duty ∧
    t.block.pwmEn = s.block.pwmEn ∧ t.block.wdCnt = 0) ∧
  (∀ s : State, ∃ t u, exec .right s = .next t ∧ exec .left t = .next u ∧
    (t.block.lDir, t.block.rDir) = (⟨false, true⟩, ⟨true, false⟩) ∧
    (u.block.lDir, u.block.rDir) = (⟨true, false⟩, ⟨false, true⟩)) ∧
  ∃ t, exec .left State.reset = .next t ∧
    (t.block.pins.lDa, t.block.pins.lDb, t.block.pins.rDa, t.block.pins.rDb) = (true, false, false, true)

/-- R73. Any byte `b` with `b & 0x07 = 3` is `Right`, canonically `0x03`. From every state it completes: left motor forward,
right motor backward, duty and PWM enable unchanged, the watchdog kicked; corner cases as for `Left`, mirrored. From reset
the direction pins are 0,1,1,0. -/
def Obligations.RightTurnsOnTheSpot : Prop :=
  (∀ b : Byte, b &&& 0x07#8 = 3#8 → decode b = .right) ∧ encode .right = 0x03#8 ∧
  (∀ s : State, ∃ t, exec .right s = .next t ∧
    t.block.lDir = ⟨false, true⟩ ∧ t.block.rDir = ⟨true, false⟩ ∧ t.block.duty = s.block.duty ∧
    t.block.pwmEn = s.block.pwmEn ∧ t.block.wdCnt = 0) ∧
  (∀ s : State, ∃ t u, exec .left s = .next t ∧ exec .right t = .next u ∧
    (t.block.lDir, t.block.rDir) = (⟨true, false⟩, ⟨false, true⟩) ∧
    (u.block.lDir, u.block.rDir) = (⟨false, true⟩, ⟨true, false⟩)) ∧
  ∃ t, exec .right State.reset = .next t ∧
    (t.block.pins.lDa, t.block.pins.lDb, t.block.pins.rDa, t.block.pins.rDb) = (false, true, true, false)

/-- R74. Any byte `b` with `b & 0x07 = 4` is `Stop`, canonically `0x04`. From every state it completes: both motors stopped
regardless of the prior state, duty and PWM enable unchanged, the watchdog not kicked: its count and the PWM count are
those of an idle tick. `Stop` when already stopped is an idle tick outright, a later `Forward` runs at the old duty, and at a
tick that expires it leaves what the watchdog leaves. After `Left` the pins are 0,0,0,0. -/
def Obligations.StopStopsBothAndDoesNotKick : Prop :=
  (∀ b : Byte, b &&& 0x07#8 = 4#8 → decode b = .stop) ∧ encode .stop = 0x04#8 ∧
  (∀ s : State, ∃ t, exec .stop s = .next t ∧
    t.block.lDir = ⟨false, false⟩ ∧ t.block.rDir = ⟨false, false⟩ ∧ t.block.duty = s.block.duty ∧
    t.block.pwmEn = s.block.pwmEn ∧
    t.block.wdCnt = min (s.block.wdCnt + 1) Config.wdPeriod ∧ t.block.wdCnt = (s.block.idleTick Config.wdPeriod).wdCnt ∧
    t.block.pwmCnt = (s.block.idleTick Config.wdPeriod).pwmCnt ∧
    (s.block.Stopped → t.block = s.block.idleTick Config.wdPeriod) ∧
    (Config.wdPeriod ≤ s.block.wdCnt + 1 → t.block = s.block.idleTick Config.wdPeriod) ∧
    ∃ u, exec .forward t = .next u ∧ u.block.duty = s.block.duty) ∧
  ∀ s : State, ∃ t u, exec .left s = .next t ∧ exec .stop t = .next u ∧
    (u.block.pins.lDa, u.block.pins.lDb, u.block.pins.rDa, u.block.pins.rDb) = (false, false, false, false)

/-- R81. Any byte `b` with `b & 0x07 = 5` is `SetSpeed` of its aux field in place; the byte of `SetSpeed(v)` is
`(v & 0xF8) | 0x05`. From every state, for every `v`, it completes: the duty becomes `v & 0xF8`, the direction registers and the
PWM enable are unchanged, the PWM count advances as on an idle tick, the watchdog is kicked, and no stop happens at its tick.
`v` in 0..7 gives byte `0x05` and duty 0 and both enable pins low; `v = 255` gives `0xFD` and duty 248; operands with the same
top five bits are one byte and one effect; with the duty already equal only the watchdog count differs from a plain tick's
counting. The byte `0x85` makes the duty 128. -/
def Obligations.SetSpeedWritesTheMaskedDuty : Prop :=
  (∀ b : Byte, b &&& 0x07#8 = 5#8 →
    decode b = .setSpeed (b &&& 0b1111_1000#8) ∧ b &&& 0b1111_1000#8 = aux b ++ 0b000#3) ∧
  (∀ v : Byte, encode (.setSpeed v) = (v &&& 0xF8#8) ||| 0x05#8) ∧
  (∀ (v : Byte) (s : State), ∃ t, exec (.setSpeed v) s = .next t ∧
    t.block.duty = v &&& 0b1111_1000#8 ∧ t.block.lDir = s.block.lDir ∧ t.block.rDir = s.block.rDir ∧
    t.block.pwmEn = s.block.pwmEn ∧
    t.block.pwmCnt = (s.block.idleTick Config.wdPeriod).pwmCnt ∧ t.block.wdCnt = 0 ∧
    (v.toNat < 8 → encode (.setSpeed v) = 0x05#8 ∧ t.block.duty = 0#8 ∧ t.block.pins.lEn = false ∧
      t.block.pins.rEn = false) ∧
    (v = 255#8 → encode (.setSpeed v) = 0xFD#8 ∧ t.block.duty = 248#8) ∧
    (s.block.duty = v &&& 0b1111_1000#8 → t.block = { s.block with pwmCnt := t.block.pwmCnt, wdCnt := 0 }) ∧
    ∀ v' : Byte, v' &&& 0xF8#8 = v &&& 0xF8#8 →
      encode (.setSpeed v') = encode (.setSpeed v) ∧ exec (.setSpeed v') s = .next t) ∧
  ∀ s : State, ∃ t, exec (decode 0x85#8) s = .next t ∧ t.block.duty = 128#8

/-- R85. Any byte `b` with `b & 0x07 = 6` is the reserved tag 110, which no host encoder sends. From every state it completes
with no effect of its own: the state after it is the state after an idle tick, so duty and PWM enable keep their values and
the directions do unless the watchdog expires at this tick. The example of R85 is a statement of its own,
`ReservedByteAfterForward`. -/
def Obligations.ReservedTagSixIsAnIdleTick : Prop :=
  (∀ b : Byte, b &&& 0x07#8 = 6#8 → decode b = .reserved6) ∧ (∀ i : Instr, ∀ b ∈ hostEncode i, b &&& 0x07#8 ≠ 6#8) ∧
  (∀ s : State, ∃ t, exec .reserved6 s = .next t ∧ t.block = s.block.idleTick Config.wdPeriod ∧
    t.block.duty = s.block.duty ∧ t.block.pwmEn = s.block.pwmEn ∧
    t.block.wdCnt = min (s.block.wdCnt + 1) Config.wdPeriod ∧
    t.block.lDir = (if Config.wdPeriod ≤ s.block.wdCnt + 1 then ⟨false, false⟩ else s.block.lDir) ∧
    t.block.rDir = (if Config.wdPeriod ≤ s.block.wdCnt + 1 then ⟨false, false⟩ else s.block.rDir)) ∧
  (∀ (s : State) (b : Byte), b &&& 0x07#8 = 6#8 →
    step (s.presentByte b) = step { s with inputs := .idle :: s.inputs.tail })

/-- R86. Any byte `b` with `b & 0x07 = 7` is the reserved tag 111, which no host encoder sends. From every state it completes
and is identical to tag 110 in every respect. After `SetSpeed 128`, `Byte 0xFF` leaves the duty 128. -/
def Obligations.ReservedTagSevenIsAnIdleTick : Prop :=
  (∀ b : Byte, b &&& 0x07#8 = 7#8 → decode b = .reserved7) ∧ (∀ i : Instr, ∀ b ∈ hostEncode i, b &&& 0x07#8 ≠ 7#8) ∧
  (∀ s : State, ∃ t, exec .reserved7 s = .next t ∧ exec .reserved6 s = .next t ∧
    t.block = s.block.idleTick Config.wdPeriod ∧
    t.block.duty = s.block.duty ∧ t.block.pwmEn = s.block.pwmEn ∧
    t.block.wdCnt = min (s.block.wdCnt + 1) Config.wdPeriod ∧
    t.block.lDir = (if Config.wdPeriod ≤ s.block.wdCnt + 1 then ⟨false, false⟩ else s.block.lDir) ∧
    t.block.rDir = (if Config.wdPeriod ≤ s.block.wdCnt + 1 then ⟨false, false⟩ else s.block.rDir)) ∧
  (∀ (s : State) (b : Byte), b &&& 0x07#8 = 7#8 →
    step (s.presentByte b) = step { s with inputs := .idle :: s.inputs.tail }) ∧
  ∀ s : State, ∃ t u, exec (.setSpeed 128#8) s = .next t ∧ exec (decode 0xFF#8) t = .next u ∧ u.block.duty = 128#8

/-! ## Frames -/

/-- What Forward, Backward, Left, Right and Stop leave unchanged: the duty, the PWM enable and the host's coming inputs. They
write the two direction registers and, as every tick does, the two counters: the PWM count goes up by one modulo 256 and the
watchdog count is 0 for the four that kick and counts on for Stop. There is no memory. -/
def Obligations.DirectionCommandsFrame : Prop :=
  ∀ i ∈ [Instr.forward, .backward, .left, .right, .stop], ∀ s t, exec i s = .next t →
    t.block.duty = s.block.duty ∧ t.block.pwmEn = s.block.pwmEn ∧ t.inputs = s.inputs ∧
    t.block.pwmCnt.toNat = (s.block.pwmCnt.toNat + 1) % 256 ∧
    t.block.wdCnt = if i = .stop then min (s.block.wdCnt + 1) Config.wdPeriod else 0

/-- What SetSpeed leaves unchanged: both direction registers, the PWM enable and the host's coming inputs. It writes the duty
and, as every tick does, the two counters; its tick does not restart the PWM count. There is no memory. -/
def Obligations.SetSpeedFrame : Prop :=
  ∀ (v : Byte) (s t : State), exec (.setSpeed v) s = .next t →
    t.block.lDir = s.block.lDir ∧ t.block.rDir = s.block.rDir ∧ t.block.pwmEn = s.block.pwmEn ∧ t.inputs = s.inputs ∧
    t.block.pwmCnt.toNat = (s.block.pwmCnt.toNat + 1) % 256 ∧ t.block.wdCnt = 0

/-- What the reserved tags leave unchanged: the duty, the PWM enable, the host's coming inputs, and both direction registers
at every tick at which the watchdog does not expire. The tick advances the two counters. There is no memory. -/
def Obligations.ReservedCommandsFrame : Prop :=
  ∀ i ∈ [Instr.reserved6, .reserved7], ∀ s t, exec i s = .next t →
    t.block.duty = s.block.duty ∧ t.block.pwmEn = s.block.pwmEn ∧ t.inputs = s.inputs ∧
    t.block.pwmCnt.toNat = (s.block.pwmCnt.toNat + 1) % 256 ∧
    t.block.wdCnt = min (s.block.wdCnt + 1) Config.wdPeriod ∧
    t.block.lDir = (if t.block.wdCnt = Config.wdPeriod then .stopped else s.block.lDir) ∧
    t.block.rDir = (if t.block.wdCnt = Config.wdPeriod then .stopped else s.block.rDir)

/-! ## The tick -/

/-- A step runs the decoded command: with a byte at the ports and no reset, `step` is `exec` of the byte's command at the
state whose coming inputs have moved on by one tick. -/
def Obligations.StepRunsTheDecodedCommand : Prop :=
  ∀ (s : State) (b : Byte) (rest : List PortIn), s.inputs = ⟨false, true, b⟩ :: rest →
    step s = exec (decode b) { s with inputs := rest }

/-- Every command's meaning is the tick function of R90 (the spec's decisions D8, D9, D11 among its phases) at the command's
byte, from every state; the host's coming inputs are left alone. -/
def Obligations.MeaningIsTheTickFunction : Prop :=
  ∀ (i : Instr) (s : State), exec i s = .next { s with block := blockStep Config.wdPeriod s.block false (some (encode i)) }

/-- Every step is the tick function of R90 (the spec's decisions D2, D11, D12, D13) at the ports of the tick, from every
state and under every input; the two ways of writing the machine agree. -/
def Obligations.StepIsTheTickFunction : Prop :=
  ∀ s : State, step s =
    .next { block := blockStep Config.wdPeriod s.block s.portIn.rst s.portIn.cmd, inputs := s.inputs.tail }

/-- Every run is the run of R94: the state after `n` ticks is the fold of the tick function over the first `n` inputs, the
host's interface runs to just that state, and never stops. Past the end of the listed inputs the host is silent, which is
the model's choice (notes/assumptions/2.md). -/
def Obligations.EveryRunIsTheFoldOfTheTickFunction : Prop :=
  ∀ (n : Nat) (s : State),
    Host.Core.run core n s = .next (s.after n) ∧
    (s.after n).block = s.block.runFunction kickTag Config.wdPeriod (s.inputsFor n) ∧
    (s.after (n + 1)).block = blockStep Config.wdPeriod (s.after n).block (s.inputAt n).rst (s.inputAt n).cmd ∧
    (s.after n).inputs = s.inputs.drop n

/-- R94, which the spec derives: from every state every step yields a next state, and a watchdog count within the period stays
within it, so every run of any length goes on. -/
def Obligations.NoStepStopsAndCountStaysInPeriod : Prop :=
  (∀ s : State, ∃ t, step s = .next t) ∧
  ∀ (n : Nat) (s : State), s.block.wdCnt ≤ Config.wdPeriod →
    ∃ t, Host.Core.run core n s = .next t ∧ t.block.wdCnt ≤ Config.wdPeriod

/-- The idle tick of R93, which the spec derives: no reset and `cmd_valid = 0`, whatever `cmd_data` is. Only the counters move
and, at and after expiry, the stop is applied. -/
def Obligations.IdleTickMovesOnlyTheCounters : Prop :=
  ∀ (s : State) (d : Byte) (rest : List PortIn), s.inputs = ⟨false, false, d⟩ :: rest →
    ∃ t, step s = .next t ∧
      t.block.pwmCnt.toNat = (s.block.pwmCnt.toNat + 1) % 256 ∧ t.block.wdCnt = min (s.block.wdCnt + 1) Config.wdPeriod ∧
      t.block.lDir = (if t.block.wdCnt = Config.wdPeriod then .stopped else s.block.lDir) ∧
      t.block.rDir = (if t.block.wdCnt = Config.wdPeriod then .stopped else s.block.rDir) ∧
      t.block.duty = s.block.duty ∧ t.block.pwmEn = s.block.pwmEn ∧ t.inputs = rest

/-- The model's choice (notes/assumptions/2.md): a host with no more listed inputs is silent, so its tick is the one with an idle
port in front, and its list stays empty. -/
def Obligations.EmptyInputsAreASilentHost : Prop :=
  ∀ s : State, s.inputs = [] → step s = step { s with inputs := [⟨false, false, 0#8⟩] } ∧ ∃ t, step s = .next t ∧
  t.inputs = []

/-! ## Reset -/

/-- Reset, as the spec decides it (D13): at any tick with `rst = 1` the state becomes the reset state, whatever the state was and
whatever the command is. That the host's later inputs stay is the model's choice (notes/assumptions/19.md, with the list of
notes/assumptions/2.md). -/
def Obligations.ResetWinsOverEverything : Prop :=
  ∀ (s : State) (v : Bool) (d : Byte) (rest : List PortIn), s.inputs = ⟨true, v, d⟩ :: rest →
    step s = .next { block := .reset, inputs := rest }

/-- The reset state of R34: both motors stopped and PWM enabled, as the source says; duty 0, PWM count 0 and watchdog count 0, as
the spec decides (D6, D7). All six pins are low. -/
def Obligations.ResetStateAndItsPins : Prop :=
  State.reset.block.lDir = ⟨false, false⟩ ∧ State.reset.block.rDir = ⟨false, false⟩ ∧ State.reset.block.duty = 0#8 ∧
  State.reset.block.pwmEn = true ∧ State.reset.block.pwmCnt = 0#8 ∧ State.reset.block.wdCnt = 0 ∧
  State.reset.block.pins = ⟨false, false, false, false, false, false⟩

/-- After reset the pins stay low until a command changes them (R99, R125; duty 0 is the spec's decision D6): the direction pins
as long as no byte has tag 0, 1, 2 or 3, the enable pins as long as no `SetSpeed` byte has a duty of 8 or more. -/
def Obligations.PinsStayLowAfterReset : Prop :=
  ∀ (ins : List PortIn) (n : Nat),
    ((∀ p ∈ ins.take n, p.rst = false → ∀ b ∈ p.cmd, tag b ∉ [0#3, 1#3, 2#3, 3#3]) →
      (({ block := .reset, inputs := ins } : State).after n).block.pins.DirectionLow) ∧
    ((∀ p ∈ ins.take n, p.rst = false → ∀ b ∈ p.cmd, tag b = 5#3 → speedBits b = 0#8) →
      (({ block := .reset, inputs := ins } : State).after n).block.pins.lEn = false ∧
      (({ block := .reset, inputs := ins } : State).after n).block.pins.rEn = false)

/-! ## Invariants -/

/-- R35, which the spec derives: every step keeps the invariant of the reachable states: the direction pair is one of five, the
duty a multiple of 8, PWM enabled, the watchdog count within the period, both motors stopped whenever it stands at the period,
and the enable pins equal. -/
def Obligations.EveryStepKeepsTheInvariant : Prop :=
  ∀ s t : State, s.block.Inv Config.wdPeriod → step s = .next t → t.block.Inv Config.wdPeriod

/-- The reset state meets the invariant of R35 at every period, not only the block's own. -/
def Obligations.ResetMeetsTheInvariant : Prop :=
  ∀ T : Nat, 1 ≤ T → State.reset.block.Inv T

/-- R24: the PWM enable gates the enable pins; reset sets it to 1, no command writes it, no step but reset does, and it is 1 in
every state of every run from reset. -/
def Obligations.PwmEnableIsNeverCleared : Prop :=
  (∀ b : Block, b.pwmEn = false → b.pins.lEn = false ∧ b.pins.rEn = false) ∧
  State.reset.block.pwmEn = true ∧
  (∀ (i : Instr) (s t : State), exec i s = .next t → t.block.pwmEn = s.block.pwmEn) ∧
  (∀ s t : State, step s = .next t → t.block.pwmEn = if s.portIn.rst then true else s.block.pwmEn) ∧
  ∀ (ins : List PortIn) (n : Nat), (({ block := .reset, inputs := ins } : State).after n).block.pwmEn = true

/-! ## The watchdog -/

/-- The watchdog count at every step (R107, R108; the spec's decisions D8, D9): 0 at a reset and at a byte with tag 0, 1, 2, 3
or 5; otherwise, `Stop`, reserved bytes and idle ticks alike, one more, saturating at the period. -/
def Obligations.WatchdogCountsFromTheLastKick : Prop :=
  ∀ s t : State, step s = .next t →
    t.block.wdCnt =
      if s.portIn.rst then 0
      else match s.portIn.cmd with
        | none => min (s.block.wdCnt + 1) Config.wdPeriod
        | some b => if tag b ∈ [0#3, 1#3, 2#3, 3#3, 5#3] then 0 else min (s.block.wdCnt + 1) Config.wdPeriod

/-- The table of R112 (the spec's decision D11), row by row: what a tick leaves at which an idle tick would expire. A kicking
command wins over the expiry, the expiry over a non-kicking byte, reset over both. -/
def Obligations.CommandAndExpiryAtOneTick : Prop :=
  ∀ s : State, Config.wdPeriod ≤ s.block.wdCnt + 1 → ∀ (p : PortIn) (rest : List PortIn), s.inputs = p :: rest →
    ∃ t, step s = .next t ∧
      (p.rst = true → t.block.wdCnt = 0 ∧ t.block.Stopped ∧ t.block.duty = 0#8) ∧
      (p.rst = false → p.cmd = none → t.block.wdCnt = Config.wdPeriod ∧ t.block.Stopped ∧ t.block.duty = s.block.duty) ∧
      (∀ b, p.rst = false → p.cmd = some b →
        (tag b = 0#3 → t.block.wdCnt = 0 ∧ (t.block.lDir, t.block.rDir) = (.forward, .forward) ∧
          t.block.duty = s.block.duty) ∧
        (tag b = 1#3 → t.block.wdCnt = 0 ∧ (t.block.lDir, t.block.rDir) = (.backward, .backward) ∧
          t.block.duty = s.block.duty) ∧
        (tag b = 2#3 → t.block.wdCnt = 0 ∧ (t.block.lDir, t.block.rDir) = (.backward, .forward) ∧
          t.block.duty = s.block.duty) ∧
        (tag b = 3#3 → t.block.wdCnt = 0 ∧ (t.block.lDir, t.block.rDir) = (.forward, .backward) ∧
          t.block.duty = s.block.duty) ∧
        (tag b = 5#3 → t.block.wdCnt = 0 ∧ (t.block.lDir, t.block.rDir) = (s.block.lDir, s.block.rDir) ∧
          t.block.duty = speedBits b) ∧
        (tag b ∈ [4#3, 6#3, 7#3] → t.block.wdCnt = Config.wdPeriod ∧ t.block.Stopped ∧ t.block.duty = s.block.duty))

/-- The timing law of R111, which the spec derives: after a kicking tick and `n <= T` ticks without kick or reset the watchdog
count is `n`; both motors are stopped once `n = T` or one of these ticks presented `Stop`; and until then the direction registers
are what they were after the kick. -/
def Obligations.MotionLastsExactlyThePeriod : Prop :=
  ∀ (s : State) (n : Nat), (s.inputAt 0).kicks = true → n ≤ Config.wdPeriod → (s.after 1).QuietFor n →
    (s.after (1 + n)).block.wdCnt = n ∧
    ((n = Config.wdPeriod ∨ ∃ k < n, ∃ b ∈ ((s.after 1).inputAt k).cmd, tag b = 4#3) → (s.after (1 + n)).block.Stopped) ∧
    ((n ≠ Config.wdPeriod ∧ ∀ k < n, ∀ b ∈ ((s.after 1).inputAt k).cmd, tag b ≠ 4#3) →
      (s.after (1 + n)).block.lDir = (s.after 1).block.lDir ∧ (s.after (1 + n)).block.rDir = (s.after 1).block.rDir)

/-- The fail-safe of R123, which the spec derives: from every state, after `T` ticks or more without reset and without a kicking
byte all four direction pins are low. -/
def Obligations.SilenceStopsTheMotors : Prop :=
  ∀ (s : State) (n : Nat), s.QuietFor (Config.wdPeriod + n) → (s.after (Config.wdPeriod + n)).block.pins.DirectionLow

/-- Leaving the expired condition (R114, which the spec derives): while expired and stopped, any number of quiet ticks leaves it
so, with the duty kept. Each of the four direction commands clears the count and drives its directions as it always does; a
`SetSpeed` clears the count and sets the duty but the motors stay stopped, since the old direction was not saved; and reset
leaves the reset state, whose count is 0, below every period. -/
def Obligations.OnlyAKickOrResetLeavesExpiry : Prop :=
  ∀ s : State, s.block.wdCnt = Config.wdPeriod → s.block.Stopped →
    (∀ n, s.QuietFor n → (s.after n).block.wdCnt = Config.wdPeriod ∧ (s.after n).block.Stopped ∧
      (s.after n).block.duty = s.block.duty) ∧
    (∀ p ∈ ([(.forward, .forward, .forward), (.backward, .backward, .backward), (.left, .backward, .forward),
        (.right, .forward, .backward)] : List (Instr × DirReg × DirReg)),
      ∃ t, exec p.1 s = .next t ∧ t.block.wdCnt = 0 ∧ t.block.lDir = p.2.1 ∧ t.block.rDir = p.2.2 ∧
        t.block.duty = s.block.duty) ∧
    (∀ v, ∃ t, exec (.setSpeed v) s = .next t ∧ t.block.wdCnt = 0 ∧ t.block.Stopped ∧ t.block.duty = dutyOperand v) ∧
    (s.portIn.rst = true → ∃ t, step s = .next t ∧ t.block = .reset ∧ t.block.wdCnt ≠ Config.wdPeriod)

/-- R109, which the spec derives: whether `Stop` kicks cannot be seen. From every state and under every input the pins after every
tick equal those of a block whose kick set holds `Stop` too. -/
def Obligations.StopKickIsInvisibleOnThePins : Prop :=
  ∀ (s : State) (n : Nat), (s.after n).block.pins = (s.block.runFunction kickTagOrStop Config.wdPeriod (s.inputsFor n)).pins

/-- R87 (the spec's decision D9): the reading under which any received byte kicks could be seen. Some state and one reserved byte
tell the two blocks apart on the direction pins: with the rejected reading the motors would still move. -/
def Obligations.ReservedKickWouldBeVisible : Prop :=
  ∃ (s : State) (b : Byte), tag b = 6#3 ∧ s.inputs = [.byte b] ∧ s.block.Inv Config.wdPeriod ∧
    (s.after 1).block.pins.DirectionLow ∧
    ¬ (s.block.runFunction kickAnyByte Config.wdPeriod (s.inputsFor 1)).pins.DirectionLow

/-- The watchdog counter fits in `WD_W` bits and in no fewer (R7; the spec's decision D8): a count within the period is below
`2 ^ WD_W`, and any width that holds the period is at least `WD_W`. -/
def Obligations.WatchdogCounterFitsItsWidth : Prop :=
  ∀ T : Nat, 1 ≤ T →
    (∀ s : Block, s.wdCnt ≤ T → s.wdCnt < 2 ^ Config.wdWidth T) ∧ ∀ w : Nat, T < 2 ^ w → Config.wdWidth T ≤ w

/-- The source's boundary test (S7 of spec/95_test_vectors.md, R111; the placement in the block is the spec's decision D8): at a tick
of 1 ms or shorter, with the period that 500 ms intends, a movement kicked just now still stands after any number of idle ticks
that take at most 499 ms, and both motors are stopped after any that take at least 501 ms. -/
def Obligations.HalfSecondTimeoutInRealTime : Prop :=
  ∀ (fTick : ℚ) (T : Nat), RealTimePeriod fTick T → 1000 ≤ fTick →
    ∀ b : Block, b.wdCnt = 0 → ∀ n : Nat,
      ((n : ℚ) / fTick ≤ 499 / 1000 →
        (b.runFunction kickTag T (List.replicate n .idle)).lDir = b.lDir ∧
        (b.runFunction kickTag T (List.replicate n .idle)).rDir = b.rDir) ∧
      (501 / 1000 ≤ (n : ℚ) / fTick → (b.runFunction kickTag T (List.replicate n .idle)).Stopped)

/-! ## Duty and PWM -/

/-- Who writes and who reads the duty (R21). Every step leaves the duty at the masked operand of a `SetSpeed` byte, at 0 on
reset, and otherwise unchanged, so Stop, the watchdog and the direction commands leave it alone. It is read by the PWM
comparator only: two states that differ in the duty alone step to states that agree in everything but the duty, and their
pins differ in the two enable pins alone, by the comparison. That reset leaves 0 is the spec's decision D6
(notes/assumptions/11.md), the comparison `PWM_CNT < DUTY` its D4 (notes/assumptions/14.md), one comparison on both enable
pins its D21 (notes/assumptions/22.md). -/
def Obligations.DutyIsWrittenBySetSpeedAndReadByPwmOnly : Prop :=
  (∀ s t : State, step s = .next t →
    t.block.duty =
      if s.portIn.rst then 0#8
      else match s.portIn.cmd with
        | none => s.block.duty
        | some b => if tag b = 5#3 then b &&& 0b1111_1000#8 else s.block.duty) ∧
  (∀ (s t u : State) (d : Byte), step s = .next t → step { s with block := { s.block with duty := d } } = .next u →
    u = { t with block := { t.block with duty := u.block.duty } }) ∧
  (∀ (b : Block) (d : Byte), ({ b with duty := d } : Block).pins =
    { b.pins with
        lEn := b.pwmEn && decide (b.pwmCnt.toNat < d.toNat), rEn := b.pwmEn && decide (b.pwmCnt.toNat < d.toNat) })

/-- R84, which the spec derives: the duty after any run is the masked operand of the last `SetSpeed` byte, or what it was before
if there was none since, and 0 after a reset with none since. -/
def Obligations.DutyIsTheLastSpeedSet : Prop :=
  ∀ (s : State) (m n : Nat),
    (s.NoTagFor [5#3] n → (s.after n).block.duty = s.block.duty) ∧
    (∀ b, (s.inputAt m).rst = false → (s.inputAt m).cmd = some b → tag b = 5#3 →
      (s.after (m + 1)).NoTagFor [5#3] n → (s.after (m + 1 + n)).block.duty = speedBits b) ∧
    ((s.inputAt m).rst = true → (s.after (m + 1)).NoTagFor [5#3] n → (s.after (m + 1 + n)).block.duty = 0#8)

/-- R83: the bottom three bits of a speed are not preserved, so the duty is `v` less at most 7; and there are thirty-two levels, one per
aux value `a`, namely `8 * a`: neighbours are 8 duty units apart, one thirty-second of the 256-tick period. -/
def Obligations.ThirtyTwoSpeedLevels : Prop :=
  (∀ v : Byte, (dutyOperand v).toNat = 8 * (v.toNat / 8) ∧ (dutyOperand v).toNat ≤ v.toNat ∧
    v.toNat - (dutyOperand v).toNat ≤ 7) ∧ 8 * 32 = 256 ∧
  ∀ a : BitVec 5, (dutyOperand (a ++ 0b101#3)).toNat = 8 * a.toNat ∧
  decode (a ++ 0b101#3) = .setSpeed (dutyOperand (a ++ 0b101#3))

/-- The PWM count (R95; the spec's decision D4): after `n` ticks without reset it is `n` more modulo 256, and from the reset state
`n mod 256`. -/
def Obligations.PwmCountAdvancesEveryTick : Prop :=
  ∀ (s : State) (n : Nat), s.NoResetFor n →
    (s.after n).block.pwmCnt.toNat = (s.block.pwmCnt.toNat + n) % 256 ∧
    (s.block.pwmCnt = State.reset.block.pwmCnt → (s.after n).block.pwmCnt.toNat = n % 256)

/-- The duty cycle (R32, R96; the spec's decision D4): over any 256 consecutive states with PWM enabled in which no reset and no
`SetSpeed` comes between, from any phase of the counter and for every one of the 256 duties, the enable pin is high in exactly
`DUTY` of them. -/
def Obligations.EnableIsHighForDutyTicksOfEveryPeriod : Prop :=
  ∀ s : State, s.block.pwmEn = true → s.NoTagFor [5#3] 255 → s.enableHighCount 256 = s.block.duty.toNat

/-- The irregular period of R131 (the spec's decision D5): in a period that starts at count 0, a `SetSpeed` executed in the tick that
makes the count `k` gives `min(d, k)` high ticks before it and `d' - k` after it, none if `d' <= k`; so duty 64 to 128 at 101
gives 91, and 128 to 64 gives 101. -/
def Obligations.DutyChangeInsideAPeriod : Prop :=
  ∀ (s : State) (k : Nat) (b : Byte), s.block.pwmEn = true → s.block.pwmCnt = 0#8 → k < 255 →
    s.NoTagFor [5#3] k → s.inputAt k = .byte b → tag b = 5#3 → (s.after (k + 1)).NoTagFor [5#3] (254 - k) →
    s.enableHighCount 256 = min s.block.duty.toNat (k + 1) + ((speedBits b).toNat - (k + 1))

/-- Direction and speed are independent (R76, R98, which the spec derives): states that agree on the direction registers, the
watchdog and the inputs show the same direction pins for ever, whatever their duties and PWM counters; states that agree on the
duty, the PWM enable, the PWM count and the inputs show the same enable pins for ever, whatever their directions and watchdogs. -/
def Obligations.DirectionAndSpeedDoNotInterfere : Prop :=
  ∀ s s' : State, s.inputs = s'.inputs →
    (s.block.lDir = s'.block.lDir → s.block.rDir = s'.block.rDir → s.block.wdCnt = s'.block.wdCnt →
      ∀ n, (s.after n).block.lDir = (s'.after n).block.lDir ∧ (s.after n).block.rDir = (s'.after n).block.rDir) ∧
    (s.block.duty = s'.block.duty → s.block.pwmEn = s'.block.pwmEn → s.block.pwmCnt = s'.block.pwmCnt →
      ∀ n, (s.after n).block.pins.lEn = (s'.after n).block.pins.lEn ∧
      (s.after n).block.pins.rEn = (s'.after n).block.pins.rEn)

/-- Every directive is idempotent on the motor registers (R44, which the spec derives): executing it twice in succession leaves the
direction registers and the duty as executing it once does, from every state. -/
def Obligations.DirectivesAreIdempotent : Prop :=
  ∀ (i : Instr) (s : State), i.isDirective = true →
    ∃ t u, exec i s = .next t ∧ exec i t = .next u ∧ u.block.lDir = t.block.lDir ∧ u.block.rDir = t.block.rDir ∧
      u.block.duty = t.block.duty

/-! ## The reserved example -/

/-- The example of R85, `Forward` and then `Byte 0x06`, whose direction pins the spec gives as 0,1,0,1 (its own derivation). By
R110 and R112 (the spec's decisions D10, D11) the reserved tick expires when the period is 1, and then the pins are low; at
every longer period they are as the example says. The model follows the two rules (notes/assumptions/26.md). -/
def Obligations.ReservedByteAfterForward : Prop :=
  ∀ s : State, ∃ t u, exec .forward s = .next t ∧ exec (decode 0x06#8) t = .next u ∧
    (u.block.pins.lDa, u.block.pins.lDb, u.block.pins.rDa, u.block.pins.rDb) =
      if Config.wdPeriod = 1 then (false, false, false, false) else (false, true, false, true)
end

