-- ==== Sys2Proof/Laws/Decode.lean ====
section
/-! SUPPORT. The decoder by cases of the tag, and the tag as the low three bits. -/

namespace Sys2Proof

/-- The tag is the low three bits of the byte, as a number (R56). -/
theorem tag_toNat (b : Byte) : (tag b).toNat = (b &&& 7#8).toNat := by
  revert b
  decide

/-- Every byte has one of the eight tags and is that tag's command (R53, R58). -/
theorem decode_cases (b : Byte) :
    (tag b = 0#3 ∧ decode b = .forward) ∨ (tag b = 1#3 ∧ decode b = .backward) ∨
    (tag b = 2#3 ∧ decode b = .left) ∨ (tag b = 3#3 ∧ decode b = .right) ∨ (tag b = 4#3 ∧ decode b = .stop) ∨
    (tag b = 5#3 ∧ decode b = .setSpeed (speedBits b)) ∨
    (tag b = 6#3 ∧ decode b = .reserved6) ∨ (tag b = 7#3 ∧ decode b = .reserved7) := by
  unfold decode
  split <;> simp_all

/-- Masking a masked speed changes nothing (R55, R57). -/
theorem speedBits_idem (b : Byte) : speedBits (speedBits b) = speedBits b := by
  simp [speedBits, BitVec.and_assoc]

/-- The `SetSpeed` byte's top five bits are the operand's (R55). -/
theorem speedBits_encode_setSpeed (v : Byte) : speedBits (encode (.setSpeed v)) = speedBits v := by
  revert v
  decide

end Sys2Proof
end

