-- ==== Sys2Proof/Laws/State.lean ====
section
/-! SUPPORT. One lemma per field per update of the state, each true by unfolding the update, for simp: later proofs never
unfold a record update themselves. -/

namespace Sys2Proof.Machine

section block

variable (s : Block)

/-! The motor primitives are writes of a constant (R67 to R69). -/

@[simp] theorem forwardMotor_eq (m : Motor) : s.forwardMotor m = s.setDir m .forward := rfl
@[simp] theorem backwardMotor_eq (m : Motor) : s.backwardMotor m = s.setDir m .backward := rfl
@[simp] theorem stopMotor_eq (m : Motor) : s.stopMotor m = s.setDir m .stopped := rfl

/-! setDir -/

@[simp] theorem setDir_left_lDir (d : DirReg) : (s.setDir .left d).lDir = d := rfl
@[simp] theorem setDir_left_rDir (d : DirReg) : (s.setDir .left d).rDir = s.rDir := rfl
@[simp] theorem setDir_right_lDir (d : DirReg) : (s.setDir .right d).lDir = s.lDir := rfl
@[simp] theorem setDir_right_rDir (d : DirReg) : (s.setDir .right d).rDir = d := rfl
@[simp] theorem setDir_duty (m : Motor) (d : DirReg) : (s.setDir m d).duty = s.duty := by cases m <;> rfl
@[simp] theorem setDir_pwmEn (m : Motor) (d : DirReg) : (s.setDir m d).pwmEn = s.pwmEn := by cases m <;> rfl
@[simp] theorem setDir_pwmCnt (m : Motor) (d : DirReg) : (s.setDir m d).pwmCnt = s.pwmCnt := by cases m <;> rfl
@[simp] theorem setDir_wdCnt (m : Motor) (d : DirReg) : (s.setDir m d).wdCnt = s.wdCnt := by cases m <;> rfl

/-! writeDuty -/

@[simp] theorem writeDuty_lDir (d : Byte) : (s.writeDuty d).lDir = s.lDir := rfl
@[simp] theorem writeDuty_rDir (d : Byte) : (s.writeDuty d).rDir = s.rDir := rfl
@[simp] theorem writeDuty_duty (d : Byte) : (s.writeDuty d).duty = d := rfl
@[simp] theorem writeDuty_pwmEn (d : Byte) : (s.writeDuty d).pwmEn = s.pwmEn := rfl
@[simp] theorem writeDuty_pwmCnt (d : Byte) : (s.writeDuty d).pwmCnt = s.pwmCnt := rfl
@[simp] theorem writeDuty_wdCnt (d : Byte) : (s.writeDuty d).wdCnt = s.wdCnt := rfl

/-! countWatchdog -/

@[simp] theorem countWatchdog_lDir (T : Nat) (kick : Bool) : (s.countWatchdog T kick).lDir = s.lDir := rfl
@[simp] theorem countWatchdog_rDir (T : Nat) (kick : Bool) : (s.countWatchdog T kick).rDir = s.rDir := rfl
@[simp] theorem countWatchdog_duty (T : Nat) (kick : Bool) : (s.countWatchdog T kick).duty = s.duty := rfl
@[simp] theorem countWatchdog_pwmEn (T : Nat) (kick : Bool) : (s.countWatchdog T kick).pwmEn = s.pwmEn := rfl
@[simp] theorem countWatchdog_pwmCnt (T : Nat) (kick : Bool) : (s.countWatchdog T kick).pwmCnt = s.pwmCnt := rfl
@[simp] theorem countWatchdog_wdCnt (T : Nat) (kick : Bool) : (s.countWatchdog T kick).wdCnt = if kick then 0 else min (s.wdCnt + 1) T := rfl

/-! countPwm -/

@[simp] theorem countPwm_lDir : (s.countPwm).lDir = s.lDir := rfl
@[simp] theorem countPwm_rDir : (s.countPwm).rDir = s.rDir := rfl
@[simp] theorem countPwm_duty : (s.countPwm).duty = s.duty := rfl
@[simp] theorem countPwm_pwmEn : (s.countPwm).pwmEn = s.pwmEn := rfl
@[simp] theorem countPwm_pwmCnt : (s.countPwm).pwmCnt = s.pwmCnt + 1#8 := rfl
@[simp] theorem countPwm_wdCnt : (s.countPwm).wdCnt = s.wdCnt := rfl

/-! The reset tick and the reset state (R34, R124). -/

@[simp] theorem resetTick_eq : s.resetTick = Block.reset := rfl
@[simp] theorem reset_lDir : Block.reset.lDir = .stopped := rfl
@[simp] theorem reset_rDir : Block.reset.rDir = .stopped := rfl
@[simp] theorem reset_duty : Block.reset.duty = 0#8 := rfl
@[simp] theorem reset_pwmEn : Block.reset.pwmEn = true := rfl
@[simp] theorem reset_pwmCnt : Block.reset.pwmCnt = 0#8 := rfl
@[simp] theorem reset_wdCnt : Block.reset.wdCnt = 0 := rfl

end block

section state

variable (s : State)

/-! The environment beside the block: its operations leave the block alone, and the block's leave it alone. -/

@[simp] theorem consume_block : s.consume.block = s.block := rfl
@[simp] theorem consume_inputs : s.consume.inputs = s.inputs.tail := rfl
@[simp] theorem presentByte_block (b : Byte) : (s.presentByte b).block = s.block := rfl
@[simp] theorem presentByte_inputs (b : Byte) : (s.presentByte b).inputs = .byte b :: s.inputs.tail := rfl
@[simp] theorem onBlock_block (f : Block → Block) : (s.onBlock f).block = f s.block := rfl
@[simp] theorem onBlock_inputs (f : Block → Block) : (s.onBlock f).inputs = s.inputs := rfl
@[simp] theorem reset_block : State.reset.block = .reset := rfl
@[simp] theorem reset_inputs : State.reset.inputs = [] := rfl

end state

end Sys2Proof.Machine
end

