-- ==== Sys2Proof/Laws/Ops.lean ====
section
/-! SUPPORT. One lemma per shared operation that says everything it can do, to be cited instead of unfolding it. -/

namespace Sys2Proof.Machine

/-- The period is at least 1 (R106). -/
theorem wdPeriod_pos : 1 ≤ Config.wdPeriod := Nat.succ_le_succ (Nat.zero_le _)

/-- A kicking count is below every legal period. -/
theorem zero_ne_wdPeriod : 0 ≠ Config.wdPeriod := Nat.ne_of_lt wdPeriod_pos

/-- Two blocks with equal fields are equal. -/
@[ext] theorem block_ext {s t : Block} (hl : s.lDir = t.lDir) (hr : s.rDir = t.rDir) (hd : s.duty = t.duty)
    (he : s.pwmEn = t.pwmEn) (hc : s.pwmCnt = t.pwmCnt) (hw : s.wdCnt = t.wdCnt) : s = t := by
  cases s
  cases t
  simp_all

/-- The watchdog action (R110): at the period both motors stop, else nothing happens. -/
theorem watchdogAction_eq (T : Nat) (s : Block) :
    s.watchdogAction T =
      { s with
          lDir := if s.wdCnt = T then .stopped else s.lDir, rDir := if s.wdCnt = T then .stopped else s.rDir } := by
  unfold Block.watchdogAction Block.wdExpired
  by_cases h : s.wdCnt = T <;> simp [h, Block.setDir]

/-- The PWM count as a number (R95). -/
theorem countPwm_toNat (s : Block) : s.countPwm.pwmCnt.toNat = (s.pwmCnt.toNat + 1) % 256 := by
  simp [BitVec.toNat_add]

/-- The enable pins as numbers (R32). -/
theorem pwmHigh_iff (s : Block) : s.pwmHigh = true ↔ s.pwmEn = true ∧ s.pwmCnt.toNat < s.duty.toNat := by
  simp [Block.pwmHigh, BitVec.ult]

/-- A kicking tick whose command writes `l`, `r` and `d` (R70 to R73, R81), at a legal period: no expiry can follow. -/
theorem tick_kick {T : Nat} (hT : 1 ≤ T) (act : Block → Block) (s : Block) (l r : DirReg) (d : Byte)
    (h : act (s.countWatchdog T true) = { s with lDir := l, rDir := r, duty := d, wdCnt := 0 }) :
    s.tick T true act = { s with lDir := l, rDir := r, duty := d, pwmCnt := s.pwmCnt + 1#8, wdCnt := 0 } := by
  have h0 : 0 ≠ T := Nat.ne_of_lt hT
  simp [Block.tick, h, watchdogAction_eq, h0, Block.countPwm]

/-- A tick that does not kick and whose command writes nothing (R85, R86, R93). -/
theorem tick_idle (T : Nat) (s : Block) :
    s.tick T false id =
      { s with
          lDir := if min (s.wdCnt + 1) T = T then .stopped else s.lDir
          rDir := if min (s.wdCnt + 1) T = T then .stopped else s.rDir
          pwmCnt := s.pwmCnt + 1#8
          wdCnt := min (s.wdCnt + 1) T } := by
  simp [Block.tick, watchdogAction_eq, Block.countPwm, Block.countWatchdog]

theorem forwardTick_eq {T : Nat} (hT : 1 ≤ T) (s : Block) :
    forwardTick T s = { s with lDir := .forward, rDir := .forward, pwmCnt := s.pwmCnt + 1#8, wdCnt := 0 } :=
  tick_kick hT _ s .forward .forward s.duty rfl

theorem backwardTick_eq {T : Nat} (hT : 1 ≤ T) (s : Block) :
    backwardTick T s = { s with lDir := .backward, rDir := .backward, pwmCnt := s.pwmCnt + 1#8, wdCnt := 0 } :=
  tick_kick hT _ s .backward .backward s.duty rfl

theorem leftTick_eq {T : Nat} (hT : 1 ≤ T) (s : Block) :
    leftTick T s = { s with lDir := .backward, rDir := .forward, pwmCnt := s.pwmCnt + 1#8, wdCnt := 0 } :=
  tick_kick hT _ s .backward .forward s.duty rfl

theorem rightTick_eq {T : Nat} (hT : 1 ≤ T) (s : Block) :
    rightTick T s = { s with lDir := .forward, rDir := .backward, pwmCnt := s.pwmCnt + 1#8, wdCnt := 0 } :=
  tick_kick hT _ s .forward .backward s.duty rfl

theorem setSpeedTick_eq {T : Nat} (hT : 1 ≤ T) (v : Byte) (s : Block) :
    setSpeedTick T v s = { s with duty := dutyOperand v, pwmCnt := s.pwmCnt + 1#8, wdCnt := 0 } :=
  tick_kick hT _ s s.lDir s.rDir (dutyOperand v) rfl

/-- `Stop` leaves both motors stopped whether or not the watchdog expires at its tick (R74). -/
theorem stopTick_eq (T : Nat) (s : Block) :
    stopTick T s =
      { s with lDir := .stopped, rDir := .stopped, pwmCnt := s.pwmCnt + 1#8, wdCnt := min (s.wdCnt + 1) T } := by
  simp [stopTick, Block.tick, watchdogAction_eq, Block.countPwm, Block.countWatchdog, Block.setDir]

theorem idleTick_eq (T : Nat) (s : Block) :
    s.idleTick T =
      { s with
          lDir := if min (s.wdCnt + 1) T = T then .stopped else s.lDir
          rDir := if min (s.wdCnt + 1) T = T then .stopped else s.rDir
          pwmCnt := s.pwmCnt + 1#8
          wdCnt := min (s.wdCnt + 1) T } := tick_idle T s

theorem reserved6Tick_eq (T : Nat) (s : Block) : reserved6Tick T s = s.idleTick T := rfl

theorem reserved7Tick_eq (T : Nat) (s : Block) : reserved7Tick T s = s.idleTick T := rfl

end Sys2Proof.Machine
end

