-- ==== Sys2Proof/Laws/PerInstr.lean ====
section
/-! SUPPORT. One statement per command as syntax: its byte is covered by its own row of the opcode table and by no other
(spec/opcode_table.json, spec/30_encoding.md R53). -/

namespace Sys2Proof.Laws.RowOfByte

/-- Of the opcode table's rows exactly the command's own covers the command's byte. -/
def Statement (i : Instr) : Prop := opcodeTable.filter (fun r => r.covers (encode i)) = [i.row]

theorem forward : Statement .forward := by unfold Statement; decide
theorem backward : Statement .backward := by unfold Statement; decide
theorem left : Statement .left := by unfold Statement; decide
theorem right : Statement .right := by unfold Statement; decide
theorem stop : Statement .stop := by unfold Statement; decide

theorem setSpeed (v : Byte) : Statement (.setSpeed v) := by
  have h : encode (.setSpeed v) &&& 7#8 = 5#8 := by
    revert v
    decide
  simp [Statement, opcodeTable, OpcodeRow.covers, Instr.row, h]

theorem reserved6 : Statement .reserved6 := by unfold Statement; decide
theorem reserved7 : Statement .reserved7 := by unfold Statement; decide

end Sys2Proof.Laws.RowOfByte
end

