-- ==== Sys2Proof/Laws/Step.lean ====
section
/-! SUPPORT. What a step can do, said once, for the proofs of invariants. -/

namespace Sys2Proof.Machine

/-- A step that answers `t` is a reset tick, an idle tick or the command of the byte at the ports; these are all. -/
theorem step_cases {s t : State} (h : step s = .next t) :
    (s.portIn.rst = true ∧ t = s.consume.onBlock Block.resetTick) ∨
    (s.portIn.rst = false ∧ s.portIn.cmd = none ∧ t = s.consume.onBlock (Block.idleTick Config.wdPeriod)) ∨
    (∃ b, s.portIn.rst = false ∧ s.portIn.cmd = some b ∧ exec (decode b) s.consume = .next t) := by
  unfold step at h
  split at h
  · exact .inl ⟨‹_›, by cases h; rfl⟩
  · rename_i hr
    split at h
    · exact .inr (.inl ⟨by simpa using hr, ‹_›, by cases h; rfl⟩)
    · exact .inr (.inr ⟨_, by simpa using hr, ‹_›, h⟩)

/-- The ports of a state whose host presents `p` next. -/
theorem portIn_cons {s : State} {p : PortIn} {rest : List PortIn} (h : s.inputs = p :: rest) : s.portIn = p := by
  simp [State.portIn, h]

/-- The ports while a byte is presented. -/
@[simp] theorem portIn_presentByte (s : State) (b : Byte) : (s.presentByte b).portIn = .byte b := rfl

end Sys2Proof.Machine
end

