-- ==== Sys2Proof/Machine/Stream.lean ====
section
/-! DEFINITION. The line syntax in which the spec writes command streams, and the ports each line stands for
(spec/30_encoding.md R63). It belongs to the host's side: it says what the host presents, tick by tick. -/

namespace Sys2Proof.Machine

/-- One line of a command stream. -/
inductive Line where
  /-- `Forward`, ..., `Stop`, `SetSpeed v`: a directive, presented as its byte -/
  | command (i : Instr)
  /-- `Byte 0xNN`: a raw byte, for reserved tags and other spellings -/
  | byte (b : Byte)
  /-- `Idle n`: `n` ticks without a byte -/
  | idle (n : Nat)
  /-- `Reset`: one tick with `rst = 1` -/
  | reset
  deriving DecidableEq, Repr

/-- The ticks a line takes. -/
def Line.ticks : Line → List PortIn
  | .command i => [.byte (encode i)]
  | .byte b => [.byte b]
  | .idle n => List.replicate n .idle
  | .reset => [.reset]

/-- Consecutive lines are consecutive ticks. -/
def streamTicks (lines : List Line) : List PortIn := lines.flatMap Line.ticks

end Sys2Proof.Machine
end

