-- ==== Sys2Proof/Tests/Slice0.lean ====
section
/-! SUPPORT. Small tests. Expected values come from spec/95_test_vectors.md (S, V-E, V-D, V-S, V-R, V-P, V-W, V-X), or are
written out from the encoding rules; a vector is one tick. At the end, one witness per statement with hypotheses. -/

namespace Sys2Proof.Tests

open Sys2Proof.Machine

/-- A state of the block as the vectors write it: `L R D C W`, PWM enabled. -/
def st (l r : DirReg) (d c : Byte) (w : Nat) : Block := ⟨l, r, d, true, c, w⟩

/-- A block beside a silent host. -/
def alone (b : Block) : State := { block := b, inputs := [] }

/-- The next state of an outcome, or `s`. -/
def nextOr (s : State) : Host.Outcome State Fault Refusal → State
  | .next t => t
  | _ => s

/-! ## WellFormed: what the check refuses and what it lets through -/

theorem test_wellFormed_refuses_low_bits : (Instr.setSpeed 0b1000_0001#8).wellFormed = false := by decide
theorem test_wellFormed_takes_248 : (Instr.setSpeed 248#8).wellFormed = true := by decide

/-! ## Decoding: words written out from R52 and R53, aux bits then tag bits -/

theorem test_decode_forward : decode 0b00000_000#8 = .forward := by decide
theorem test_decode_forward_aux : decode 0b11111_000#8 = .forward := by decide
theorem test_decode_backward : decode 0b00000_001#8 = .backward := by decide
theorem test_decode_left : decode 0b00000_010#8 = .left := by decide
theorem test_decode_right_aux : decode 0b10101_011#8 = .right := by decide
theorem test_decode_stop_aux : decode 0b00001_100#8 = .stop := by decide
theorem test_decode_setSpeed_64 : decode 0b01000_101#8 = .setSpeed 64#8 := by decide
theorem test_decode_setSpeed_end_to_end : decode 0b1000_0101#8 = .setSpeed 128#8 := by decide
theorem test_decode_reserved6 : decode 0b11111_110#8 = .reserved6 := by decide
theorem test_decode_reserved7 : decode 0b11111_111#8 = .reserved7 := by decide
theorem test_encode_setSpeed_100 : encode (.setSpeed 100#8) = 0x65#8 := by decide
theorem test_encode_setSpeed_255 : encode (.setSpeed 255#8) = 0xFD#8 := by decide
theorem test_hostEncode_reserved : hostEncode .reserved6 = none := by decide
theorem test_decodeTableWord : decodeTableWord 8 0x03 = some .right := by decide
theorem test_decodeTableWord_two_bytes : decodeTableWord 16 0x0303 = none := by decide

/-- The lines of R63 are ticks: a directive, a raw byte, two idle ticks and a reset. -/
theorem test_stream_lines :
    streamTicks [.command (.setSpeed 10#8), .byte 0xFF#8, .idle 2, .reset] =
      [⟨false, true, 0x0D#8⟩, ⟨false, true, 0xFF#8⟩, ⟨false, false, 0#8⟩, ⟨false, false, 0#8⟩, ⟨true, false, 0#8⟩] := by decide

/-! ## Meanings: the tick of each command at `T = 1000` -/

theorem test_forward_from_reset : forwardTick 1000 Block.reset = st .forward .forward 0#8 1#8 0 := by decide -- V-D1
theorem test_forward_repeat :
    forwardTick 1000 (st .forward .forward 128#8 10#8 7) = st .forward .forward 128#8 11#8 0 := by decide -- V-D8
theorem test_backward_reverses :
    backwardTick 1000 (st .forward .forward 128#8 10#8 7) = st .backward .backward 128#8 11#8 0 := by decide -- V-D6
theorem test_left_leaves_expiry :
    leftTick 1000 (st .stopped .stopped 64#8 255#8 1000) = st .backward .forward 64#8 0#8 0 := by decide -- V-D9
theorem test_right_from_reset : rightTick 1000 Block.reset = st .forward .backward 0#8 1#8 0 := by decide -- V-D4
theorem test_stop_does_not_kick : stopTick 1000 Block.reset = st .stopped .stopped 0#8 1#8 1 := by decide -- V-D5
theorem test_stop_keeps_duty :
    stopTick 1000 (st .backward .forward 128#8 200#8 7) = st .stopped .stopped 128#8 201#8 8 := by decide -- V-D7
theorem test_setSpeed_keeps_direction :
    setSpeedTick 1000 8#8 (st .forward .forward 248#8 5#8 3) = st .forward .forward 8#8 6#8 0 := by decide -- V-S4
theorem test_setSpeed_255 : setSpeedTick 1000 255#8 Block.reset = st .stopped .stopped 248#8 1#8 0 := by decide -- V-S3
theorem test_reserved6_expires :
    reserved6Tick 1000 (st .forward .forward 128#8 10#8 999) = st .stopped .stopped 128#8 11#8 1000 := by decide -- V-R4
theorem test_reserved7_is_idle :
    reserved7Tick 1000 (st .forward .forward 128#8 10#8 7) = st .forward .forward 128#8 11#8 8 := by decide -- V-R2
theorem test_idle_before_expiry :
    Block.idleTick 500 (st .forward .forward 0#8 0#8 498) = st .forward .forward 0#8 1#8 499 := by decide -- V-W9
theorem test_idle_at_expiry :
    Block.idleTick 500 (st .forward .forward 0#8 0#8 499) = st .stopped .stopped 0#8 1#8 500 := by decide -- V-W10
theorem test_idle_saturates :
    Block.idleTick 5 (st .stopped .stopped 0#8 6#8 5) = st .stopped .stopped 0#8 7#8 5 := by decide -- V-W2
theorem test_kick_wins_at_expiry :
    backwardTick 3 (st .forward .forward 0#8 3#8 2) = st .backward .backward 0#8 4#8 0 := by decide -- V-W3
theorem test_shortest_period : forwardTick 1 (st .stopped .stopped 0#8 2#8 1) = st .forward .forward 0#8 3#8 0 := by decide -- V-W7

/-! ## Pins -/

theorem test_pins_enable_below_duty : (st .stopped .stopped 128#8 1#8 0).pins = ⟨false, false, true, false, false, true⟩ := by decide -- V-S1
theorem test_pins_enable_at_duty : (st .forward .forward 8#8 8#8 1).pins.lEn = false := by decide -- V-S5
theorem test_pins_duty_255 : (st .stopped .stopped 255#8 255#8 0).pins.lEn = false := by decide -- V-P5

/-! ## R90 as written, at a period of the vectors -/

theorem test_blockStep_reset_wins :
    blockStep 1000 (st .forward .backward 248#8 77#8 3) true (some 0x00#8) = Block.reset := by decide -- V-X2
theorem test_blockStep_reserved_as_idle :
    blockStep 1000 (st .forward .forward 128#8 10#8 7) false (some 0x06#8) =
      blockStep 1000 (st .forward .forward 128#8 10#8 7) false none := by decide -- V-R1, V-R3
theorem test_blockStep_wraps_count : (blockStep 5 (st .stopped .stopped 0#8 255#8 0) false none).pwmCnt = 0#8 := by decide -- V-P6

/-! ## The machine's own step -/

theorem test_step_runs_presented_byte :
    (nextOr State.reset (step (State.reset.withFetchWord 8 0x02))).block.lDir = .backward := by decide -- V-D3
theorem test_step_reset_loses_byte :
    nextOr State.reset (step { block := st .forward .backward 248#8 77#8 3, inputs := [⟨true, true, 0x00#8⟩] }) = State.reset := by
  decide -- V-X2
theorem test_step_speed_end_to_end :
    (nextOr State.reset (step ((alone (st .forward .forward 8#8 0#8 0)).presentByte 0x85#8))).block.duty = 128#8 := by decide -- S4

/-! ## Witnesses: for each statement with hypotheses, operands and a state that meet them -/

theorem silent_inputAt {s : State} (h : s.inputs = []) (k : Nat) : s.inputAt k = .idle := by simp [State.inputAt, h]

theorem silent_quietFor {s : State} (h : s.inputs = []) (n : Nat) : s.QuietFor n := by
  intro k _
  rw [silent_inputAt h]
  rfl

theorem silent_noTagFor {s : State} (h : s.inputs = []) (tags : List (BitVec 3)) (n : Nat) : s.NoTagFor tags n := by
  intro k _
  rw [silent_inputAt h]
  exact ⟨rfl, by simp [PortIn.idle, PortIn.cmd]⟩

theorem witness_FormatSplitsByteIntoAuxAndTag : tag 0xF8#8 = tag 0x00#8 ∧ tag 0x00#8 ≠ 5#3 := by decide
theorem witness_TagAloneSelectsTheCommand :
    0xF8#8 &&& 7#8 = 0#8 ∧ 0x09#8 &&& 7#8 = 1#8 ∧ 0x0A#8 &&& 7#8 = 2#8 ∧ 0xAB#8 &&& 7#8 = 3#8 ∧ 0x0C#8 &&& 7#8 = 4#8 ∧
    0xFD#8 &&& 7#8 = 5#8 ∧ 0xFE#8 &&& 7#8 = 6#8 ∧ 0xFF#8 &&& 7#8 = 7#8 := by decide
theorem witness_SpeedKeepsItsTopFiveBitsInPlace : tag 0x05#8 = 5#3 ∧ tag 0xFD#8 = 5#3 := by decide
theorem witness_DecodeAndEncodeAgree :
    (Instr.setSpeed 248#8).wellFormed = true ∧ (Instr.setSpeed 0#8).wellFormed = true ∧ Instr.reserved7.wellFormed = true ∧
    tag 0xFD#8 = 5#3 ∧ tag 0xF8#8 ≠ 5#3 := by decide
theorem witness_ForwardDrivesBothMotorsForward : 0xF8#8 &&& 0x07#8 = 0#8 ∧ State.reset.block.duty = 0#8 := by decide
theorem witness_BackwardDrivesBothMotorsBackward : 0xF9#8 &&& 0x07#8 = 1#8 ∧ State.reset.block.duty = 0#8 := by decide
theorem witness_LeftTurnsOnTheSpot : 0xFA#8 &&& 0x07#8 = 2#8 := by decide
theorem witness_RightTurnsOnTheSpot : 0xAB#8 &&& 0x07#8 = 3#8 := by decide
theorem witness_StopStopsBothAndDoesNotKick :
    0x0C#8 &&& 0x07#8 = 4#8 ∧ State.reset.block.Stopped ∧
    Config.wdPeriod ≤ (alone (st .forward .forward 8#8 0#8 Config.wdPeriodPred)).block.wdCnt + 1 :=
  ⟨by decide, ⟨rfl, rfl⟩, Nat.le_refl _⟩
theorem witness_SetSpeedWritesTheMaskedDuty :
    0x05#8 &&& 0x07#8 = 5#8 ∧ (7#8).toNat < 8 ∧ State.reset.block.duty = 7#8 &&& 0b1111_1000#8 ∧ 7#8 &&& 0xF8#8 = 0#8 &&& 0xF8#8 := by decide
theorem witness_ReservedTagSixIsAnIdleTick : 0xFE#8 &&& 0x07#8 = 6#8 ∧ hostEncode .stop = some 0x04#8 := by decide
theorem witness_ReservedTagSevenIsAnIdleTick : 0xFF#8 &&& 0x07#8 = 7#8 ∧ hostEncode .stop = some 0x04#8 := by decide
theorem witness_frames (i : Instr) (s : State) : ∃ t, exec i s = .next t := by cases i <;> exact ⟨_, rfl⟩
theorem witness_DirectionCommandsFrame :
    exec .stop State.reset = .next (State.reset.onBlock (stopTick Config.wdPeriod)) ∧
    exec .forward State.reset = .next (State.reset.onBlock (forwardTick Config.wdPeriod)) := ⟨rfl, rfl⟩
theorem witness_SetSpeedFrame : exec (.setSpeed 255#8) State.reset = .next (State.reset.onBlock (setSpeedTick Config.wdPeriod 255#8)) := rfl
theorem witness_ReservedCommandsFrame :
    exec .reserved6 State.reset = .next (State.reset.onBlock (reserved6Tick Config.wdPeriod)) ∧
    exec .reserved7 State.reset = .next (State.reset.onBlock (reserved7Tick Config.wdPeriod)) := ⟨rfl, rfl⟩
theorem witness_StepRunsTheDecodedCommand : (State.reset.presentByte 0xFF#8).inputs = ⟨false, true, 0xFF#8⟩ :: [] := by decide
theorem witness_NoStepStopsAndCountStaysInPeriod :
    State.reset.block.wdCnt ≤ Config.wdPeriod ∧ (alone (st .stopped .stopped 0#8 0#8 Config.wdPeriod)).block.wdCnt ≤ Config.wdPeriod :=
  ⟨Nat.zero_le _, Nat.le_refl _⟩
theorem witness_IdleTickMovesOnlyTheCounters :
    ({ State.reset with inputs := [⟨false, false, 0xFF#8⟩] } : State).inputs = ⟨false, false, 0xFF#8⟩ :: [] := rfl
theorem witness_EmptyInputsAreASilentHost : State.reset.inputs = [] := rfl
theorem witness_ResetWinsOverEverything :
    ({ block := st .forward .backward 248#8 77#8 3, inputs := [⟨true, true, 0x00#8⟩] } : State).inputs = ⟨true, true, 0x00#8⟩ :: [] := rfl
/-- Two ticks that move nothing: a `Stop` and a `SetSpeed 7`. -/
theorem witness_PinsStayLowAfterReset :
    (∀ p ∈ [PortIn.byte 0x04#8, .byte 0x05#8].take 2, p.rst = false → ∀ b ∈ p.cmd, tag b ∉ [0#3, 1#3, 2#3, 3#3]) ∧
    (∀ p ∈ [PortIn.byte 0x04#8, .byte 0x05#8].take 2, p.rst = false → ∀ b ∈ p.cmd, tag b = 5#3 → speedBits b = 0#8) := by
  constructor <;> simp [PortIn.byte, PortIn.cmd, tag, speedBits]
theorem witness_EveryStepKeepsTheInvariant :
    State.reset.block.Inv Config.wdPeriod ∧ step State.reset = .next (State.reset.consume.onBlock (Block.idleTick Config.wdPeriod)) := by
  refine ⟨?_, rfl⟩
  constructor <;> simp [Block.LegalPair, Block.Stopped, Block.pins]
theorem witness_ResetMeetsTheInvariant : 1 ≤ 1 := Nat.le_refl _
theorem witness_PwmEnableIsNeverCleared :
    ({ Block.reset with pwmEn := false } : Block).pwmEn = false ∧
    exec .stop State.reset = .next (State.reset.onBlock (stopTick Config.wdPeriod)) ∧
    step State.reset = .next (State.reset.consume.onBlock (Block.idleTick Config.wdPeriod)) := ⟨rfl, rfl, rfl⟩
theorem witness_WatchdogCountsFromTheLastKick :
    step State.reset = .next (State.reset.consume.onBlock (Block.idleTick Config.wdPeriod)) := rfl
/-- The last tick before the count reaches the period, with each kind of input. -/
theorem witness_CommandAndExpiryAtOneTick :
    Config.wdPeriod ≤ (alone (st .forward .forward 8#8 0#8 Config.wdPeriodPred)).block.wdCnt + 1 ∧
    PortIn.reset.rst = true ∧ PortIn.idle.rst = false ∧ PortIn.idle.cmd = none ∧
    (∀ b, (PortIn.byte b).rst = false ∧ (PortIn.byte b).cmd = some b) ∧
    tag 0x00#8 = 0#3 ∧ tag 0x01#8 = 1#3 ∧ tag 0x02#8 = 2#3 ∧ tag 0x03#8 = 3#3 ∧ tag 0xFD#8 = 5#3 ∧
    tag 0x04#8 ∈ [4#3, 6#3, 7#3] ∧ tag 0x06#8 ∈ [4#3, 6#3, 7#3] ∧ tag 0xFF#8 ∈ [4#3, 6#3, 7#3] :=
  ⟨Nat.le_refl _, rfl, rfl, rfl, fun _ => ⟨rfl, rfl⟩, by decide⟩
/-- A kick, then silence: for `n = 0`, before the period, and for `n = T`, at it. -/
theorem witness_MotionLastsExactlyThePeriod :
    ((State.reset.presentByte 0x00#8).inputAt 0).kicks = true ∧
    (0 ≤ Config.wdPeriod ∧ 0 ≠ Config.wdPeriod ∧ Config.wdPeriod ≤ Config.wdPeriod) ∧
    ((State.reset.presentByte 0x00#8).after 1).inputs = [] ∧
    ∀ n, ((State.reset.presentByte 0x00#8).after 1).QuietFor n :=
  ⟨by decide, ⟨Nat.zero_le _, zero_ne_wdPeriod, Nat.le_refl _⟩, rfl, silent_quietFor rfl⟩
/-- The other way to be stopped: a `Stop` one tick after the kick. -/
theorem witness_MotionLastsExactlyThePeriod_stop :
    (({ State.reset with inputs := [.byte 0x00#8, .byte 0x04#8] } : State).inputAt 0).kicks = true ∧
    1 ≤ Config.wdPeriod ∧ (({ State.reset with inputs := [.byte 0x00#8, .byte 0x04#8] } : State).after 1).inputs = [.byte 0x04#8] ∧
    (PortIn.byte 0x04#8).quiet = true ∧ tag 0x04#8 = 4#3 :=
  ⟨by decide, wdPeriod_pos, rfl, by decide, by decide⟩
theorem witness_SilenceStopsTheMotors :
    (alone (st .forward .backward 128#8 0#8 0)).QuietFor (Config.wdPeriod + 1) := silent_quietFor rfl _
/-- Expired with a silent host, and expired with reset asserted. -/
theorem witness_OnlyAKickOrResetLeavesExpiry :
    (alone (st .stopped .stopped 64#8 0#8 Config.wdPeriod)).block.wdCnt = Config.wdPeriod ∧
    (alone (st .stopped .stopped 64#8 0#8 Config.wdPeriod)).block.Stopped ∧
    (alone (st .stopped .stopped 64#8 0#8 Config.wdPeriod)).QuietFor 7 ∧
    ({ block := st .stopped .stopped 64#8 0#8 Config.wdPeriod, inputs := [.reset] } : State).portIn.rst = true :=
  ⟨rfl, ⟨rfl, rfl⟩, silent_quietFor rfl _, rfl⟩
theorem witness_WatchdogCounterFitsItsWidth : 1 ≤ 8 ∧ (st .stopped .stopped 0#8 0#8 8).wdCnt ≤ 8 ∧ 8 < 2 ^ 4 ∧ Config.wdWidth 8 = 4 := by
  decide
/-- A 1 kHz tick has `T = 500` (R106); 499 ticks are within 499 ms and 501 ticks reach 501 ms. -/
theorem witness_HalfSecondTimeoutInRealTime :
    RealTimePeriod 1000 500 ∧ (1000 : ℚ) ≤ 1000 ∧ (st .forward .forward 8#8 0#8 0).wdCnt = 0 ∧
    (499 : ℚ) / 1000 ≤ 499 / 1000 ∧ (501 : ℚ) / 1000 ≤ 501 / 1000 := by
  refine ⟨⟨by norm_num, by norm_num, by norm_num⟩, by norm_num, rfl, by norm_num, by norm_num⟩
/-- One input per branch of the duty's rule: silence, a reset, a `SetSpeed` byte and another byte. -/
theorem witness_DutyIsWrittenBySetSpeedAndReadByPwmOnly :
    (∀ p ∈ [PortIn.idle, .reset, .byte 0x85#8, .byte 0x04#8], ∃ t u,
      step { block := st .forward .forward 64#8 0#8 0, inputs := [p] } = .next t ∧
      step { block := { st .forward .forward 64#8 0#8 0 with duty := 255#8 }, inputs := [p] } = .next u) ∧
    PortIn.idle.cmd = none ∧ PortIn.reset.rst = true ∧ (PortIn.byte 0x85#8).cmd = some 0x85#8 ∧ tag 0x85#8 = 5#3 ∧
    (PortIn.byte 0x04#8).cmd = some 0x04#8 ∧ tag 0x04#8 ≠ 5#3 := by
  refine ⟨?_, by decide⟩
  intro p hp
  simp only [List.mem_cons, List.not_mem_nil, or_false] at hp
  rcases hp with rfl | rfl | rfl | rfl <;> exact ⟨_, _, rfl, rfl⟩
/-- A `SetSpeed`, and a reset, each followed by silence. -/
theorem witness_DutyIsTheLastSpeedSet :
    State.reset.NoTagFor [5#3] 7 ∧
    ((State.reset.presentByte 0x85#8).inputAt 0).rst = false ∧ ((State.reset.presentByte 0x85#8).inputAt 0).cmd = some 0x85#8 ∧
    tag 0x85#8 = 5#3 ∧ ((State.reset.presentByte 0x85#8).after 1).NoTagFor [5#3] 7 ∧
    (({ State.reset with inputs := [.reset] } : State).inputAt 0).rst = true ∧
    (({ State.reset with inputs := [.reset] } : State).after 1).NoTagFor [5#3] 7 :=
  ⟨silent_noTagFor rfl _ _, rfl, rfl, by decide, silent_noTagFor rfl _ _, rfl, silent_noTagFor rfl _ _⟩
theorem witness_PwmCountAdvancesEveryTick : State.reset.NoResetFor 258 ∧ State.reset.block.pwmCnt = State.reset.block.pwmCnt := by
  refine ⟨fun k _ => ?_, rfl⟩
  rw [silent_inputAt rfl]
  rfl
theorem witness_EnableIsHighForDutyTicksOfEveryPeriod :
    (alone (st .forward .forward 248#8 77#8 0)).block.pwmEn = true ∧ (alone (st .forward .forward 248#8 77#8 0)).NoTagFor [5#3] 255 :=
  ⟨rfl, silent_noTagFor rfl _ _⟩
/-- The change in the tick that makes the count 1, `k = 0`. -/
theorem witness_DutyChangeInsideAPeriod :
    ((alone (st .forward .forward 64#8 0#8 0)).presentByte 0x85#8).block.pwmEn = true ∧ ((alone (st .forward .forward 64#8 0#8 0)).presentByte 0x85#8).block.pwmCnt = 0#8 ∧
    0 < 255 ∧ ((alone (st .forward .forward 64#8 0#8 0)).presentByte 0x85#8).NoTagFor [5#3] 0 ∧
    ((alone (st .forward .forward 64#8 0#8 0)).presentByte 0x85#8).inputAt 0 = .byte 0x85#8 ∧ tag 0x85#8 = 5#3 ∧
    (((alone (st .forward .forward 64#8 0#8 0)).presentByte 0x85#8).after 1).NoTagFor [5#3] 254 :=
  ⟨rfl, rfl, by decide, fun _ h => absurd h (Nat.not_lt_zero _), rfl, by decide, silent_noTagFor rfl _ _⟩
/-- A host that is silent for `n` ticks and then presents `p`. -/
def silentThen (n : Nat) (p : PortIn) : State := { block := st .forward .forward 64#8 0#8 0, inputs := List.replicate n .idle ++ [p] }

theorem silentThen_inputAt (n : Nat) (p : PortIn) : (silentThen n p).inputAt n = p := by simp [silentThen, State.inputAt]

theorem silentThen_noTagFor (n : Nat) (p : PortIn) (tags : List (BitVec 3)) : (silentThen n p).NoTagFor tags n := by
  intro k hk
  have h : (silentThen n p).inputAt k = .idle := by simp [silentThen, State.inputAt, List.getElem?_append_left, hk]
  rw [h]
  exact ⟨rfl, by simp [PortIn.idle, PortIn.cmd]⟩

/-- The last change a period can hold, in the tick that makes the count 255, `k = 254`; after it no tick is left to constrain. -/
theorem witness_DutyChangeInsideAPeriod_last :
    (silentThen 254 (.byte 0x85#8)).block.pwmEn = true ∧ (silentThen 254 (.byte 0x85#8)).block.pwmCnt = 0#8 ∧ 254 < 255 ∧
    (silentThen 254 (.byte 0x85#8)).NoTagFor [5#3] 254 ∧ (silentThen 254 (.byte 0x85#8)).inputAt 254 = .byte 0x85#8 ∧
    ((silentThen 254 (.byte 0x85#8)).after 255).NoTagFor [5#3] (254 - 254) :=
  ⟨rfl, rfl, by decide, silentThen_noTagFor _ _ _, silentThen_inputAt _ _, fun _ h => absurd h (Nat.not_lt_zero _)⟩
theorem witness_DirectionAndSpeedDoNotInterfere :
    (alone (st .forward .forward 0#8 0#8 3)).inputs = (alone (st .forward .forward 248#8 9#8 3)).inputs ∧
    (st .forward .forward 0#8 0#8 3).lDir = (st .forward .forward 248#8 9#8 3).lDir ∧
    (st .forward .forward 0#8 0#8 3).rDir = (st .forward .forward 248#8 9#8 3).rDir ∧
    (st .forward .forward 0#8 0#8 3).wdCnt = (st .forward .forward 248#8 9#8 3).wdCnt ∧
    (st .forward .forward 8#8 1#8 0).duty = (st .stopped .backward 8#8 1#8 2).duty ∧
    (st .forward .forward 8#8 1#8 0).pwmEn = (st .stopped .backward 8#8 1#8 2).pwmEn ∧
    (st .forward .forward 8#8 1#8 0).pwmCnt = (st .stopped .backward 8#8 1#8 2).pwmCnt := by decide
theorem witness_DirectivesAreIdempotent : Instr.forward.isDirective = true ∧ (Instr.setSpeed 255#8).isDirective = true := by decide

end Sys2Proof.Tests
end

/-! SUPPORT. The PWM enable along every execution (spec/10_state.md R24). Every command is one `Block.tick`; a tick keeps what its
command's write keeps; so reset is the only writer of the enable. -/

namespace Sys2Proof.Machine

/-! ## Every command as one tick -/

/-- Whether a command kicks the watchdog (R77, R81, R87, R108). -/
def commandKicks : Instr → Bool
  | .forward | .backward | .left | .right | .setSpeed _ => true
  | .stop | .reserved6 | .reserved7 => false

/-- What a command writes in its phase of the tick (R70 to R74, R81, R85, R86). -/
def commandWrite : Instr → Block → Block
  | .forward, s => (s.forwardMotor .left).forwardMotor .right
  | .backward, s => (s.backwardMotor .left).backwardMotor .right
  | .left, s => (s.backwardMotor .left).forwardMotor .right
  | .right, s => (s.forwardMotor .left).backwardMotor .right
  | .stop, s => (s.stopMotor .left).stopMotor .right
  | .setSpeed v, s => s.writeDuty (dutyOperand v)
  | .reserved6, s => s
  | .reserved7, s => s

/-- Executing a command is one tick with that command's kick and write (R90, R92). -/
theorem exec_eq_tick (i : Instr) (s : State) :
    exec i s = .next (s.onBlock (Block.tick Config.wdPeriod (commandKicks i) (commandWrite i))) := by
  cases i <;> rfl

/-! ## What leaves the PWM enable alone -/

@[simp] theorem watchdogAction_pwmEn (T : Nat) (s : Block) : (s.watchdogAction T).pwmEn = s.pwmEn := by
  rw [watchdogAction_eq]

/-- The tick's own phases never touch the enable, so it is as the command leaves it (R90). -/
theorem tick_pwmEn {act : Block → Block} (hact : ∀ b, (act b).pwmEn = b.pwmEn) (T : Nat) (kick : Bool) (s : Block) :
    (s.tick T kick act).pwmEn = s.pwmEn := by
  simp [Block.tick, hact]

@[simp] theorem idleTick_pwmEn (T : Nat) (s : Block) : (s.idleTick T).pwmEn = s.pwmEn :=
  tick_pwmEn (fun _ => rfl) T false s

@[simp] theorem commandWrite_pwmEn (i : Instr) (s : Block) : (commandWrite i s).pwmEn = s.pwmEn := by
  cases i <;> simp [commandWrite]

theorem exec_pwmEn {i : Instr} {s t : State} (h : exec i s = .next t) : t.block.pwmEn = s.block.pwmEn := by
  rw [exec_eq_tick] at h
  cases h
  exact tick_pwmEn (commandWrite_pwmEn i) _ _ _

/-- Reset sets the enable, and no other step changes it (R24, R124). -/
theorem step_pwmEn {s t : State} (h : step s = .next t) :
    t.block.pwmEn = if s.portIn.rst then true else s.block.pwmEn := by
  obtain ⟨hrst, rfl⟩ | ⟨hrst, -, rfl⟩ | ⟨b, hrst, -, hexec⟩ := step_cases h
  · simp [hrst]
  · simp [hrst]
  · simpa [hrst] using exec_pwmEn hexec

/-! ## Along a run -/

/-- What every step keeps holds after any number of ticks (R94). -/
theorem after_of_step_keeps {P : State → Prop} (keeps : ∀ {s t : State}, step s = .next t → P s → P t) (n : Nat)
    {s : State} (hs : P s) : P (s.after n) := by
  induction n generalizing s with
  | zero => exact hs
  | succ n ih =>
    unfold State.after
    split
    · next t hstep => exact ih (keeps hstep hs)
    · exact hs

theorem step_keeps_enabled {s t : State} (h : step s = .next t) (hs : s.block.pwmEn = true) : t.block.pwmEn = true := by
  simp [step_pwmEn h, hs]

/-- With the enable at 0 both enable pins are low (R24, R32). -/
theorem pins_low_of_disabled {b : Block} (h : b.pwmEn = false) : b.pins.lEn = false ∧ b.pins.rEn = false := by
  simp [Block.pins, Block.pwmHigh, h]

/-- Settles O34: reset is the only writer of the PWM enable, so "it is 1" is kept by every step of a run from reset. -/
theorem pwmEnableIsNeverCleared : Obligations.PwmEnableIsNeverCleared :=
  ⟨fun _ => pins_low_of_disabled, reset_pwmEn, fun _ _ _ => exec_pwmEn, fun _ _ => step_pwmEn,
    fun _ n => after_of_step_keeps (P := fun s => s.block.pwmEn = true) step_keeps_enabled n reset_pwmEn⟩

end Sys2Proof.Machine

/-! SUPPORT. The byte as the concatenation of its two fields (spec/30_encoding.md R52). Masking with `0xF8` or `0x07`, setting
the tag of `SetSpeed` and shifting by 3 are each said once on the pair aux and tag; the facts about the decoder and the encoder
then come by rewriting. -/

namespace Sys2Proof

/-! ## The two fields -/

@[simp] theorem aux_append (a : BitVec 5) (t : BitVec 3) : aux (a ++ t) = a := BitVec.extractLsb'_append_eq_left

@[simp] theorem tag_append (a : BitVec 5) (t : BitVec 3) : tag (a ++ t) = t := BitVec.extractLsb'_append_eq_right

theorem aux_append_tag (b : Byte) : aux b ++ tag b = b :=
  (BitVec.extractLsb'_append_extractLsb'_eq_extractLsb' rfl).trans BitVec.extractLsb'_eq_self

theorem append_tag_toNat (a : BitVec 5) (t : BitVec 3) : (a ++ t).toNat = 8 * a.toNat + t.toNat := by
  rw [BitVec.toNat_append, ← Nat.shiftLeft_add_eq_or_of_lt t.isLt, Nat.shiftLeft_eq, Nat.mul_comm]

theorem aux_toNat (b : Byte) : (aux b).toNat = b.toNat / 8 := by
  have hb : b.toNat = 8 * (aux b).toNat + (tag b).toNat := by rw [← append_tag_toNat, aux_append_tag]
  have htag : (tag b).toNat < 8 := (tag b).isLt
  omega

/-- The aux field takes each of its 32 values, and as a number it is the byte's quotient by 8. -/
theorem exists_byte_div_eight_iff {p : Nat → Prop} : (∃ v : Byte, p (v.toNat / 8)) ↔ ∃ k < 32, p k := by
  constructor
  · rintro ⟨v, hv⟩
    have hlt : v.toNat < 256 := v.isLt
    exact ⟨v.toNat / 8, by omega, hv⟩
  · rintro ⟨k, hk, hp⟩
    refine ⟨BitVec.ofNatLT k hk ++ 0#3, ?_⟩
    rwa [← aux_toNat, aux_append, BitVec.toNat_ofNatLT]

/-! ## The masks on the fields -/

/-- `b & 0x07` clears aux and leaves the tag (R56). -/
theorem and_seven_eq_append (b : Byte) : b &&& 7#8 = 0#5 ++ tag b :=
  calc b &&& 7#8
    _ = (aux b ++ tag b) &&& (0#5 ++ BitVec.allOnes 3) := by rw [aux_append_tag]; rfl
    _ = 0#5 ++ tag b := by rw [BitVec.and_append, BitVec.and_zero, BitVec.and_allOnes]

/-- `b & 0xF8` clears the tag and leaves aux (R55, R57). -/
theorem speedBits_eq_append (b : Byte) : speedBits b = aux b ++ 0#3 :=
  calc speedBits b
    _ = (aux b ++ tag b) &&& (BitVec.allOnes 5 ++ 0#3) := by rw [aux_append_tag]; rfl
    _ = aux b ++ 0#3 := by rw [BitVec.and_append, BitVec.and_zero, BitVec.and_allOnes]

/-- A `SetSpeed` byte carries its operand's aux bits under the tag 101 (R55). -/
theorem encode_setSpeed_eq_append (v : Byte) : encode (.setSpeed v) = aux v ++ 5#3 :=
  calc encode (.setSpeed v)
    _ = (aux v ++ 0#3) ||| (0#5 ++ 5#3) := by rw [← speedBits_eq_append]; rfl
    _ = aux v ++ 5#3 := by rw [BitVec.or_append, BitVec.or_zero, BitVec.zero_or]

/-- Cleared low bits are a shift by 3 of the aux field (R57). -/
theorem append_zero_eq_shiftLeft (a : BitVec 5) : a ++ 0#3 = a.zeroExtend 8 <<< 3 := by
  simpa using BitVec.setWidth_append_eq_shiftLeft_setWidth_or (b := a) (b' := 0#3) (w'' := 8)

/-- Two bytes have one tag exactly when they agree under the mask of the opcode table (R56). -/
theorem and_seven_eq_iff {b b' : Byte} : b &&& 7#8 = b' &&& 7#8 ↔ tag b = tag b' := by
  rw [and_seven_eq_append, and_seven_eq_append, BitVec.append_right_inj]

/-- What the mask leaves is the tag and nothing else (R56). -/
theorem tag_eq_of_and_seven {b : Byte} {k : BitVec 3} (h : b &&& 7#8 = 0#5 ++ k) : tag b = k := by
  rwa [and_seven_eq_append, BitVec.append_right_inj] at h

/-! ## The decoder, one equation per masked byte (R53, R56) -/

theorem decode_of_and_seven_eq_zero {b : Byte} (h : b &&& 7#8 = 0#8) : decode b = .forward := by
  simp [decode, tag_eq_of_and_seven (k := 0#3) h]

theorem decode_of_and_seven_eq_one {b : Byte} (h : b &&& 7#8 = 1#8) : decode b = .backward := by
  simp [decode, tag_eq_of_and_seven (k := 1#3) h]

theorem decode_of_and_seven_eq_two {b : Byte} (h : b &&& 7#8 = 2#8) : decode b = .left := by
  simp [decode, tag_eq_of_and_seven (k := 2#3) h]

theorem decode_of_and_seven_eq_three {b : Byte} (h : b &&& 7#8 = 3#8) : decode b = .right := by
  simp [decode, tag_eq_of_and_seven (k := 3#3) h]

theorem decode_of_and_seven_eq_four {b : Byte} (h : b &&& 7#8 = 4#8) : decode b = .stop := by
  simp [decode, tag_eq_of_and_seven (k := 4#3) h]

theorem decode_of_and_seven_eq_five {b : Byte} (h : b &&& 7#8 = 5#8) : decode b = .setSpeed (speedBits b) := by
  simp [decode, tag_eq_of_and_seven (k := 5#3) h]

theorem decode_of_and_seven_eq_six {b : Byte} (h : b &&& 7#8 = 6#8) : decode b = .reserved6 := by
  simp [decode, tag_eq_of_and_seven (k := 6#3) h]

theorem decode_of_and_seven_eq_seven {b : Byte} (h : b &&& 7#8 = 7#8) : decode b = .reserved7 := by
  simp [decode, tag_eq_of_and_seven (k := 7#3) h]

/-- The tag alone selects the row (R56): only the operand of `SetSpeed` can differ between two bytes of one tag. -/
theorem decode_row_congr {b b' : Byte} (h : tag b = tag b') : (decode b).row = (decode b').row := by
  unfold decode
  rw [h]
  split <;> rfl

/-- Only tag 101 looks at aux (R52, R60). -/
theorem decode_congr_of_tag_ne_five {b b' : Byte} (h : tag b' = tag b) (hne : tag b ≠ 5#3) : decode b' = decode b := by
  unfold decode
  rw [h]
  split
  case h_6 h5 => exact absurd h5 hne
  all_goals rfl

/-! ## The encoder -/

/-- `decode_tag(encode(c)) = tag(c)` under the mask of the opcode table (R56). -/
theorem encode_and_seven (i : Instr) : encode i &&& 7#8 = i.row.pattern := by
  cases i with
  | setSpeed v => rw [and_seven_eq_append, encode_setSpeed_eq_append, tag_append]; rfl
  | _ => rfl

@[simp] theorem aux_encode_setSpeed (v : Byte) : aux (encode (.setSpeed v)) = aux v := by
  rw [encode_setSpeed_eq_append, aux_append]

theorem encode_setSpeed_toNat (v : Byte) : (encode (.setSpeed v)).toNat = 8 * (v.toNat / 8) + 5 := by
  rw [encode_setSpeed_eq_append, append_tag_toNat, aux_toNat]
  rfl

theorem dutyOperand_toNat (v : Byte) : (Machine.dutyOperand v).toNat = 8 * (v.toNat / 8) := by
  rw [Machine.dutyOperand, speedBits_eq_append, append_tag_toNat, aux_toNat]
  rfl

/-- A duty taken in place has its low three bits 0 (R57). -/
theorem speedBits_and_seven (b : Byte) : speedBits b &&& 7#8 = 0#8 := by
  rw [and_seven_eq_append, speedBits_eq_append, tag_append]
  rfl

/-! ## Format C8, the map of the tags, and the packing of a speed -/

/-- Settles O1: a byte is its aux field followed by its tag, and the decoder looks at aux under tag 101 only. -/
theorem formatSplitsByteIntoAuxAndTag : Obligations.FormatSplitsByteIntoAuxAndTag := by
  intro b
  refine ⟨fun i hi => ?_, fun i hi => ?_, aux_append_tag b, fun _ => decode_congr_of_tag_ne_five⟩
  · simp [tag, hi]
  · simp [aux, hi, Nat.add_comm]

/-- Settles O2: one decoder equation per tag, the row by the mask alone, and the encoder's fields. -/
theorem tagAloneSelectsTheCommand : Obligations.TagAloneSelectsTheCommand := by
  refine ⟨fun b => ?_, fun _ _ h => decode_row_congr (and_seven_eq_iff.1 h), encode_and_seven, by decide,
    aux_encode_setSpeed, rfl, rfl⟩
  exact ⟨decode_of_and_seven_eq_zero, decode_of_and_seven_eq_one, decode_of_and_seven_eq_two,
    decode_of_and_seven_eq_three, decode_of_and_seven_eq_four, decode_of_and_seven_eq_five,
    decode_of_and_seven_eq_six, decode_of_and_seven_eq_seven⟩

/-- Settles O3: the operand's aux field is kept in place under the tag, so 32 bytes and 32 levels, one per aux value. -/
theorem speedKeepsItsTopFiveBitsInPlace : Obligations.SpeedKeepsItsTopFiveBitsInPlace := by
  refine ⟨fun v => ⟨aux_encode_setSpeed v, speedBits_encode_setSpeed v, encode_setSpeed_toNat v, dutyOperand_toNat v⟩,
    fun n => ?bytes, fun n => ?levels, fun b hb => ⟨?operand, ?shifted, speedBits_and_seven b⟩, rfl⟩
  case bytes =>
    simp only [encode_setSpeed_toNat, eq_comm (b := n)]
    exact exists_byte_div_eight_iff (p := (n = 8 * · + 5))
  case levels =>
    simp only [dutyOperand_toNat, eq_comm (b := n)]
    exact exists_byte_div_eight_iff (p := (n = 8 * ·))
  case operand => exact decode_of_and_seven_eq_five (by rw [and_seven_eq_append, hb]; rfl)
  case shifted => exact (speedBits_eq_append b).trans (append_zero_eq_shiftLeft (aux b))

end Sys2Proof

/-! SUPPORT. The direction commands (spec/40_motor_and_direction.md). Forward, Backward, Left and Right are one operation at four
pairs of direction constants, so what they share is said once of any command that drives a pair; Stop is compared with the idle
tick. -/

namespace Sys2Proof.Machine

/-! ## The pins -/

section pins

variable (s : Block)

@[simp] theorem pins_lDa : s.pins.lDa = s.lDir.da := rfl
@[simp] theorem pins_lDb : s.pins.lDb = s.lDir.db := rfl
@[simp] theorem pins_rDa : s.pins.rDa = s.rDir.da := rfl
@[simp] theorem pins_rDb : s.pins.rDb = s.rDir.db := rfl
@[simp] theorem pins_lEn : s.pins.lEn = s.pwmHigh := rfl
@[simp] theorem pins_rEn : s.pins.rEn = s.pwmHigh := rfl

/-- The enable waveform does not look at the direction registers (R32, R69). -/
@[simp] theorem setDir_pwmHigh (m : Motor) (d : DirReg) : (s.setDir m d).pwmHigh = s.pwmHigh := by
  simp [Block.pwmHigh]

end pins

/-- No count is below duty 0, so the enable pins are low (R32). -/
theorem pwmHigh_of_duty_zero {s : Block} (h : s.duty = 0#8) : s.pwmHigh = false := by
  simp [← Bool.not_eq_true, pwmHigh_iff, h]

/-- Settles O8: each primitive is `setDir` with its constant, and the enable pins read neither direction register. -/
theorem motorPrimitivesWriteOneRegister : Obligations.MotorPrimitivesWriteOneRegister :=
  fun s => ⟨rfl, rfl, rfl, rfl, rfl, rfl, fun m => ⟨setDir_pwmHigh s m .stopped, setDir_pwmHigh s m .stopped⟩⟩

/-! ## The commands that drive both motors and kick -/

/-- The block after a tick that drives the motors in directions `l` and `r` and kicks the watchdog (R70 to R73, R77). -/
def Block.drive (l r : DirReg) (s : Block) : Block :=
  { s with lDir := l, rDir := r, pwmCnt := s.pwmCnt + 1#8, wdCnt := 0 }

/-- Command `i` drives the motors in directions `l` and `r`, from every state. -/
def Drives (i : Instr) (l r : DirReg) : Prop := ∀ s : State, exec i s = .next (s.onBlock (Block.drive l r))

/-- A command drives a pair as soon as its tick does. -/
theorem drives_of_tick {i : Instr} {l r : DirReg} {f : Block → Block} (hexec : ∀ s, exec i s = .next (s.onBlock f))
    (hf : ∀ b, f b = b.drive l r) : Drives i l r := by
  intro s
  rw [hexec, funext hf]

theorem forward_drives : Drives .forward .forward .forward :=
  drives_of_tick (fun _ => rfl) (forwardTick_eq wdPeriod_pos)

theorem backward_drives : Drives .backward .backward .backward :=
  drives_of_tick (fun _ => rfl) (backwardTick_eq wdPeriod_pos)

theorem left_drives : Drives .left .backward .forward :=
  drives_of_tick (fun _ => rfl) (leftTick_eq wdPeriod_pos)

theorem right_drives : Drives .right .forward .backward :=
  drives_of_tick (fun _ => rfl) (rightTick_eq wdPeriod_pos)

section drives

variable {i j : Instr} {l r l' r' : DirReg}

/-- A driving command completes, keeps the duty and the enable, and kicks (R70 to R73). -/
theorem Drives.completes (h : Drives i l r) (s : State) :
    ∃ t, exec i s = .next t ∧ t.block.lDir = l ∧ t.block.rDir = r ∧ t.block.duty = s.block.duty ∧
      t.block.pwmEn = s.block.pwmEn ∧ t.block.wdCnt = 0 :=
  ⟨_, h s, rfl, rfl, rfl, rfl, rfl⟩

/-- A driving command, said again at the next tick, moves nothing but the PWM count (R70, R71). -/
theorem Drives.completes_and_repeats (h : Drives i l r) (s : State) :
    ∃ t, exec i s = .next t ∧ t.block.lDir = l ∧ t.block.rDir = r ∧ t.block.duty = s.block.duty ∧
      t.block.pwmEn = s.block.pwmEn ∧ t.block.wdCnt = 0 ∧
      (s.block.duty = 0#8 → t.block.pins.lEn = false ∧ t.block.pins.rEn = false) ∧
      ∃ u, exec i t = .next u ∧ u.block.lDir = t.block.lDir ∧ u.block.rDir = t.block.rDir ∧
        u.block.duty = t.block.duty ∧ u.block.pwmEn = t.block.pwmEn ∧ u.block.wdCnt = t.block.wdCnt := by
  obtain ⟨t, ht, hl, hr, hduty, hen, hwd⟩ := h.completes s
  obtain ⟨u, hu, hl', hr', hduty', hen', hwd'⟩ := h.completes t
  have low : s.block.duty = 0#8 → t.block.pwmHigh = false := fun h0 => pwmHigh_of_duty_zero (hduty.trans h0)
  exact ⟨t, ht, hl, hr, hduty, hen, hwd, fun h0 => ⟨low h0, low h0⟩,
    u, hu, hl'.trans hl.symm, hr'.trans hr.symm, hduty', hen', hwd'.trans hwd.symm⟩

/-- One driving command after another: the second's directions replace the first's in its one tick (R72, R73). -/
theorem Drives.then_drives (hi : Drives i l r) (hj : Drives j l' r') (s : State) :
    ∃ t u, exec i s = .next t ∧ exec j t = .next u ∧
      (t.block.lDir, t.block.rDir) = (l, r) ∧ (u.block.lDir, u.block.rDir) = (l', r') :=
  ⟨_, _, hi s, hj _, rfl, rfl⟩

/-- The direction pins after a driving command (R31, R32). -/
theorem Drives.direction_pins (h : Drives i l r) (s : State) :
    ∃ t, exec i s = .next t ∧
      (t.block.pins.lDa, t.block.pins.lDb, t.block.pins.rDa, t.block.pins.rDb) = (l.da, l.db, r.da, r.db) :=
  ⟨_, h s, rfl⟩

end drives

/-- Settles O11: `Forward` drives both motors forward. -/
theorem forwardDrivesBothMotorsForward : Obligations.ForwardDrivesBothMotorsForward :=
  ⟨fun _ => decode_of_and_seven_eq_zero, rfl, forward_drives.completes_and_repeats, forward_drives.direction_pins .reset⟩

/-- Settles O12: `Backward` drives both motors backward. -/
theorem backwardDrivesBothMotorsBackward : Obligations.BackwardDrivesBothMotorsBackward :=
  ⟨fun _ => decode_of_and_seven_eq_one, rfl, backward_drives.completes_and_repeats, backward_drives.direction_pins .reset⟩

/-- Settles O13: `Left` drives the left motor backward and the right motor forward, also straight after `Right`. -/
theorem leftTurnsOnTheSpot : Obligations.LeftTurnsOnTheSpot :=
  ⟨fun _ => decode_of_and_seven_eq_two, rfl, left_drives.completes, right_drives.then_drives left_drives,
    left_drives.direction_pins .reset⟩

/-- Settles O14: `Right` drives the left motor forward and the right motor backward, also straight after `Left`. -/
theorem rightTurnsOnTheSpot : Obligations.RightTurnsOnTheSpot :=
  ⟨fun _ => decode_of_and_seven_eq_three, rfl, right_drives.completes, left_drives.then_drives right_drives,
    right_drives.direction_pins .reset⟩

/-! ## Stop -/

theorem exec_stop (s : State) : exec .stop s = .next (s.onBlock (stopTick Config.wdPeriod)) := rfl

section stop

variable (T : Nat) (s : Block)

@[simp] theorem stopTick_lDir : (stopTick T s).lDir = .stopped := by rw [stopTick_eq]
@[simp] theorem stopTick_rDir : (stopTick T s).rDir = .stopped := by rw [stopTick_eq]
@[simp] theorem stopTick_duty : (stopTick T s).duty = s.duty := by rw [stopTick_eq]
@[simp] theorem stopTick_pwmEn : (stopTick T s).pwmEn = s.pwmEn := by rw [stopTick_eq]
@[simp] theorem stopTick_wdCnt : (stopTick T s).wdCnt = min (s.wdCnt + 1) T := by rw [stopTick_eq]

/-- `Stop` is an idle tick but for the stop itself (R74, R87). -/
theorem stopTick_eq_stop_idleTick : stopTick T s = ((s.idleTick T).stopMotor .left).stopMotor .right := by
  rw [stopTick_eq, idleTick_eq]
  rfl

/-- `Stop` does not kick: the watchdog counts as if no byte had come (R74, R87). -/
theorem stopTick_wdCnt_eq_idleTick : (stopTick T s).wdCnt = (s.idleTick T).wdCnt := by
  simp [stopTick_eq_stop_idleTick]

/-- The PWM count goes on as if no byte had come (R69, R74). -/
theorem stopTick_pwmCnt_eq_idleTick : (stopTick T s).pwmCnt = (s.idleTick T).pwmCnt := by
  simp [stopTick_eq_stop_idleTick]

variable {T s}

/-- Nothing is left to stop at a tick that leaves the motors stopped by itself. -/
theorem stopTick_eq_idleTick (h : (s.idleTick T).Stopped) : stopTick T s = s.idleTick T := by
  obtain ⟨hl, hr⟩ := h
  rw [stopTick_eq_stop_idleTick]
  exact block_ext hl.symm hr.symm rfl rfl rfl rfl

/-- Stopped motors stay stopped over an idle tick (R93). -/
theorem idleTick_stopped_of_stopped (h : s.Stopped) : (s.idleTick T).Stopped := by
  obtain ⟨hl, hr⟩ := h
  rw [idleTick_eq]
  exact ⟨ite_eq_left_iff.2 fun _ => hl, ite_eq_left_iff.2 fun _ => hr⟩

/-- At a tick that expires the watchdog stops the motors (R110). -/
theorem idleTick_stopped_of_expiry (h : T ≤ s.wdCnt + 1) : (s.idleTick T).Stopped := by
  rw [idleTick_eq]
  exact ⟨if_pos (min_eq_right h), if_pos (min_eq_right h)⟩

end stop

/-- `Stop` completes with both motors stopped and the counters of an idle tick, of which it is one wherever that tick leaves the
motors stopped; the duty is there for a later `Forward` (R74). -/
theorem stop_completes (s : State) : ∃ t, exec .stop s = .next t ∧
    t.block.lDir = .stopped ∧ t.block.rDir = .stopped ∧ t.block.duty = s.block.duty ∧
    t.block.pwmEn = s.block.pwmEn ∧
    t.block.wdCnt = min (s.block.wdCnt + 1) Config.wdPeriod ∧ t.block.wdCnt = (s.block.idleTick Config.wdPeriod).wdCnt ∧
    t.block.pwmCnt = (s.block.idleTick Config.wdPeriod).pwmCnt ∧
    (s.block.Stopped → t.block = s.block.idleTick Config.wdPeriod) ∧
    (Config.wdPeriod ≤ s.block.wdCnt + 1 → t.block = s.block.idleTick Config.wdPeriod) ∧
    ∃ u, exec .forward t = .next u ∧ u.block.duty = s.block.duty :=
  ⟨_, exec_stop s, stopTick_lDir _ _, stopTick_rDir _ _, stopTick_duty _ _, stopTick_pwmEn _ _, stopTick_wdCnt _ _,
    stopTick_wdCnt_eq_idleTick _ _, stopTick_pwmCnt_eq_idleTick _ _,
    fun h => stopTick_eq_idleTick (idleTick_stopped_of_stopped h),
    fun h => stopTick_eq_idleTick (idleTick_stopped_of_expiry h),
    _, forward_drives _, stopTick_duty _ _⟩

/-- Settles O15: `Stop` is an idle tick with both direction registers stopped. -/
theorem stopStopsBothAndDoesNotKick : Obligations.StopStopsBothAndDoesNotKick := by
  refine ⟨fun _ => decode_of_and_seven_eq_four, rfl, stop_completes, fun s => ⟨_, _, left_drives s, exec_stop _, ?_⟩⟩
  simp [DirReg.stopped]

end Sys2Proof.Machine

/-! SUPPORT. The speed command (spec/41_speed_command.md). `SetSpeed v` is a function of `v`'s aux field alone: its byte is that
field under the tag 101, and its tick writes that field, in place, to the duty. -/

namespace Sys2Proof.Machine

/-! ## The duty of an operand -/

/-- A `SetSpeed` byte is the command whose operand is the byte's own duty (R57). -/
theorem decode_append_setSpeed_tag (a : BitVec 5) : decode (a ++ 5#3) = .setSpeed (dutyOperand (a ++ 5#3)) :=
  decode_of_and_seven_eq_five (by rw [and_seven_eq_append, tag_append]; rfl)

theorem aux_eq_zero_of_lt_eight {v : Byte} (h : v.toNat < 8) : aux v = 0#5 :=
  BitVec.eq_of_toNat_eq ((aux_toNat v).trans (Nat.div_eq_of_lt h))

/-- The smallest operands are the byte `0x05` (R81). -/
theorem encode_setSpeed_of_lt_eight {v : Byte} (h : v.toNat < 8) : encode (.setSpeed v) = 5#8 := by
  rw [encode_setSpeed_eq_append, aux_eq_zero_of_lt_eight h]
  rfl

/-- The smallest operands are duty 0 (R81, R83). -/
theorem dutyOperand_of_lt_eight {v : Byte} (h : v.toNat < 8) : dutyOperand v = 0#8 := by
  rw [dutyOperand, speedBits_eq_append, aux_eq_zero_of_lt_eight h]
  rfl

/-- Operands of one duty are one byte (R81). -/
theorem encode_setSpeed_congr {v v' : Byte} (h : dutyOperand v' = dutyOperand v) :
    encode (.setSpeed v') = encode (.setSpeed v) :=
  congrArg (· ||| 5#8) h

/-- Settles O46: the duty is the aux field times 8. -/
theorem thirtyTwoSpeedLevels : Obligations.ThirtyTwoSpeedLevels := by
  refine ⟨fun v => ⟨dutyOperand_toNat v, ?_, ?_⟩, rfl, fun a => ⟨?level, decode_append_setSpeed_tag a⟩⟩
  · rw [dutyOperand_toNat]
    exact Nat.mul_div_le v.toNat 8
  · rw [dutyOperand_toNat]
    omega
  case level => rw [dutyOperand_toNat, ← aux_toNat, aux_append]

/-! ## Its tick -/

@[simp] theorem idleTick_pwmCnt (T : Nat) (s : Block) : (s.idleTick T).pwmCnt = s.pwmCnt + 1#8 := by rw [idleTick_eq]

/-- The whole effect of `SetSpeed` (R81): duty, PWM count and watchdog count; no expiry at a tick that kicks. -/
theorem exec_setSpeed (v : Byte) (s : State) :
    exec (.setSpeed v) s =
      .next { s with
        block := { s.block with duty := dutyOperand v, pwmCnt := s.block.pwmCnt + 1#8, wdCnt := 0 } } := by
  rw [← setSpeedTick_eq wdPeriod_pos]
  rfl

/-- Operands of one duty are one effect (R81). -/
theorem exec_setSpeed_congr {v v' : Byte} (h : dutyOperand v' = dutyOperand v) (s : State) :
    exec (.setSpeed v') s = exec (.setSpeed v) s := by
  rw [exec_setSpeed, exec_setSpeed, h]

/-- `SetSpeed` completes: it writes the duty, kicks, and lets the PWM count go on; the motors keep their directions (R81). -/
theorem setSpeed_completes (v : Byte) (s : State) : ∃ t, exec (.setSpeed v) s = .next t ∧
    t.block.duty = dutyOperand v ∧ t.block.lDir = s.block.lDir ∧ t.block.rDir = s.block.rDir ∧
    t.block.pwmEn = s.block.pwmEn ∧
    t.block.pwmCnt = (s.block.idleTick Config.wdPeriod).pwmCnt ∧ t.block.wdCnt = 0 :=
  ⟨_, exec_setSpeed v s, rfl, rfl, rfl, rfl, (idleTick_pwmCnt _ _).symm, rfl⟩

/-- Settles O16: the byte and the tick of `SetSpeed v` are functions of `v & 0xF8`, which the tick writes to the duty. -/
theorem setSpeedWritesTheMaskedDuty : Obligations.SetSpeedWritesTheMaskedDuty := by
  refine ⟨fun b hb => ⟨decode_of_and_seven_eq_five hb, speedBits_eq_append b⟩, fun _ => rfl, fun v s => ?_,
    fun s => ⟨_, exec_setSpeed 128#8 s, rfl⟩⟩
  obtain ⟨t, ht, hduty, hl, hr, hen, hcnt, hwd⟩ := setSpeed_completes v s
  refine ⟨t, ht, hduty, hl, hr, hen, hcnt, hwd, fun hv => ?smallest, ?greatest, fun heq => ?same_duty,
    fun v' h => ⟨encode_setSpeed_congr h, (exec_setSpeed_congr h s).trans ht⟩⟩
  case smallest =>
    have hzero : t.block.duty = 0#8 := hduty.trans (dutyOperand_of_lt_eight hv)
    exact ⟨encode_setSpeed_of_lt_eight hv, hzero, pwmHigh_of_duty_zero hzero, pwmHigh_of_duty_zero hzero⟩
  case greatest =>
    rintro rfl
    exact ⟨rfl, hduty⟩
  case same_duty => exact block_ext hl hr (hduty.trans heq.symm) hen rfl hwd

end Sys2Proof.Machine

/-! SUPPORT. The reserved tags (spec/42_reserved_commands.md). No host encoder sends them, and each is the idle tick under another
name; so what they do is said once of the idle tick and once of any command that is one. -/

namespace Sys2Proof

/-- The host's encoder keeps the tag of the command's row (R54, R56). -/
theorem hostEncode_and_seven {i : Instr} {b : Byte} (h : b ∈ hostEncode i) : b &&& 7#8 = i.row.pattern := by
  obtain ⟨-, hb⟩ := Option.ite_none_right_eq_some.1 h
  rw [← Option.some.inj hb, encode_and_seven]

theorem isDirective_of_mem_hostEncode {i : Instr} {b : Byte} (h : b ∈ hostEncode i) : i.isDirective = true :=
  (Option.ite_none_right_eq_some.1 h).1

/-- The two reserved patterns are no directive's (R53, R59). -/
theorem row_pattern_of_isDirective {i : Instr} (h : i.isDirective = true) :
    i.row.pattern ≠ 6#8 ∧ i.row.pattern ≠ 7#8 := by
  cases i with
  | reserved6 | reserved7 => cases h
  | _ => simp [Instr.row]

/-- No host encoder sends a reserved tag (R59). -/
theorem hostEncode_not_reserved {i : Instr} {b : Byte} (h : b ∈ hostEncode i) :
    b &&& 7#8 ≠ 6#8 ∧ b &&& 7#8 ≠ 7#8 := by
  rw [hostEncode_and_seven h]
  exact row_pattern_of_isDirective (isDirective_of_mem_hostEncode h)

end Sys2Proof

namespace Sys2Proof.Machine

/-! ## What an idle tick does -/

section idle

variable (T : Nat) (s : Block)

@[simp] theorem idleTick_duty : (s.idleTick T).duty = s.duty := by rw [idleTick_eq]
@[simp] theorem idleTick_wdCnt : (s.idleTick T).wdCnt = min (s.wdCnt + 1) T := by rw [idleTick_eq]

/-- The left motor is stopped exactly at a tick that brings the count to the period (R93, R110). -/
theorem idleTick_lDir : (s.idleTick T).lDir = if T ≤ s.wdCnt + 1 then .stopped else s.lDir := by
  simp [idleTick_eq]

/-- The right motor is stopped at the same ticks (R93, R110). -/
theorem idleTick_rDir : (s.idleTick T).rDir = if T ≤ s.wdCnt + 1 then .stopped else s.rDir := by
  simp [idleTick_eq]

end idle

/-- At the tick that presents `b`, the block executes `b`'s command and nothing else (R43, R92). -/
theorem step_presentByte (b : Byte) (s : State) : step (s.presentByte b) = exec (decode b) s.consume := rfl

/-- At a tick of a silent host the block's step is the idle tick (R93). -/
theorem step_idle_cons (s : State) :
    step { s with inputs := .idle :: s.inputs.tail } = .next (s.consume.onBlock (Block.idleTick Config.wdPeriod)) := rfl

/-! ## The commands that are idle ticks -/

/-- Command `i` does nothing but pass an idle tick, from every state. -/
def Idles (i : Instr) : Prop := ∀ s : State, exec i s = .next (s.onBlock (Block.idleTick Config.wdPeriod))

theorem reserved6_idles : Idles .reserved6 := by
  intro s
  rw [← funext (reserved6Tick_eq Config.wdPeriod)]
  rfl

theorem reserved7_idles : Idles .reserved7 := by
  intro s
  rw [← funext (reserved7Tick_eq Config.wdPeriod)]
  rfl

section idles

variable {i j : Instr}

/-- An idling command completes: it keeps the duty and the enable, counts the watchdog on, and leaves the directions to the
watchdog (R85 to R87, R112). -/
theorem Idles.completes (h : Idles i) (s : State) : ∃ t, exec i s = .next t ∧
    t.block = s.block.idleTick Config.wdPeriod ∧ t.block.duty = s.block.duty ∧ t.block.pwmEn = s.block.pwmEn ∧
    t.block.wdCnt = min (s.block.wdCnt + 1) Config.wdPeriod ∧
    t.block.lDir = (if Config.wdPeriod ≤ s.block.wdCnt + 1 then .stopped else s.block.lDir) ∧
    t.block.rDir = (if Config.wdPeriod ≤ s.block.wdCnt + 1 then .stopped else s.block.rDir) :=
  ⟨_, h s, rfl, idleTick_duty _ _, idleTick_pwmEn _ _, idleTick_wdCnt _ _, idleTick_lDir _ _, idleTick_rDir _ _⟩

/-- Any two idling commands have one outcome (R86). -/
theorem Idles.exec_eq (hi : Idles i) (hj : Idles j) (s : State) : exec i s = exec j s :=
  (hi s).trans (hj s).symm

/-- A byte of an idling command is indistinguishable from no byte (R85). -/
theorem Idles.step_presentByte_eq_idle (h : Idles i) {b : Byte} (hb : decode b = i) (s : State) :
    step (s.presentByte b) = step { s with inputs := .idle :: s.inputs.tail } := by
  rw [step_presentByte, hb, h, step_idle_cons]

/-- An idling command after `SetSpeed` leaves the duty that was set (R84, R86). -/
theorem Idles.keeps_duty_after_setSpeed (h : Idles i) (v : Byte) (s : State) :
    ∃ t u, exec (.setSpeed v) s = .next t ∧ exec i t = .next u ∧ u.block.duty = dutyOperand v :=
  ⟨_, _, exec_setSpeed v s, h _, idleTick_duty _ _⟩

end idles

/-- Settles O17: tag 110 is the idle tick, and no directive is encoded under it. -/
theorem reservedTagSixIsAnIdleTick : Obligations.ReservedTagSixIsAnIdleTick :=
  ⟨fun _ => decode_of_and_seven_eq_six, fun _ _ h => (hostEncode_not_reserved h).1, reserved6_idles.completes,
    fun s _ hb => reserved6_idles.step_presentByte_eq_idle (decode_of_and_seven_eq_six hb) s⟩

/-- Settles O18: tag 111 is the idle tick as well, so it has the outcome of tag 110 from every state. -/
theorem reservedTagSevenIsAnIdleTick : Obligations.ReservedTagSevenIsAnIdleTick := by
  refine ⟨fun _ => decode_of_and_seven_eq_seven, fun _ _ h => (hostEncode_not_reserved h).2, fun s => ?_,
    fun s _ hb => reserved7_idles.step_presentByte_eq_idle (decode_of_and_seven_eq_seven hb) s,
    reserved7_idles.keeps_duty_after_setSpeed 128#8⟩
  obtain ⟨t, ht, heffect⟩ := reserved7_idles.completes s
  exact ⟨t, ht, (reserved6_idles.exec_eq reserved7_idles s).trans ht, heffect⟩

end Sys2Proof.Machine

/-! SUPPORT. Decode and encode together (spec/30_encoding.md section 4). What a byte becomes when it is decoded and encoded again
is one equation, from which the rest follows; the opcode table is then a matter of a command's own byte. -/

namespace Sys2Proof

/-! ## Round trips -/

/-- The byte of a decoded byte: a `SetSpeed` byte as it stands, any other tag with aux 0 (R54, R55). -/
theorem encode_decode (b : Byte) : encode (decode b) = if tag b = 5#3 then b else 0#5 ++ tag b := by
  have hspeed : encode (.setSpeed (speedBits b)) = aux b ++ 5#3 := by
    rw [encode_setSpeed_eq_append, speedBits_eq_append, aux_append]
  unfold decode
  split
  case h_6 h5 => rw [hspeed, if_pos h5, ← h5, aux_append_tag]
  all_goals rename_i ht; rw [ht]; rfl

theorem tag_encode_decode (b : Byte) : tag (encode (decode b)) = tag b := by
  rw [encode_decode]
  split
  · rfl
  · rw [tag_append]

theorem aux_encode_decode (b : Byte) : aux (encode (decode b)) = if tag b = 5#3 then aux b else 0#5 := by
  rw [encode_decode]
  split
  · rfl
  · rw [aux_append]

/-- A `SetSpeed` comes back rounded down to a multiple of 8 (R55, R57, R65). -/
theorem decode_encode_setSpeed (v : Byte) : decode (encode (.setSpeed v)) = .setSpeed (speedBits v) := by
  rw [decode_of_and_seven_eq_five (encode_and_seven _), speedBits_encode_setSpeed]

/-- A speed with its low three bits clear is its own masking (R55). -/
theorem speedBits_of_and_seven {v : Byte} (h : v &&& 7#8 = 0#8) : speedBits v = v := by
  rw [speedBits_eq_append, ← tag_eq_of_and_seven (k := 0#3) h, aux_append_tag]

/-- A command that a byte carries as it stands comes back from its byte (R53 to R57). -/
theorem decode_encode {i : Instr} (h : i.wellFormed = true) : decode (encode i) = i := by
  cases i with
  | setSpeed v => rw [decode_encode_setSpeed, speedBits_of_and_seven (beq_iff_eq.1 h)]
  | _ => rfl

theorem encode_injective {i j : Instr} (hi : i.wellFormed = true) (hj : j.wellFormed = true)
    (h : encode i = encode j) : i = j := by
  rw [← decode_encode hi, h, decode_encode hj]

theorem decode_wellFormed (b : Byte) : (decode b).wellFormed = true := by
  unfold decode
  split
  case h_6 => exact beq_iff_eq.2 (speedBits_and_seven b)
  all_goals rfl

/-- Settles O5: the byte of a decoded byte keeps the tag, and a command comes back from its byte but for the bits a byte cannot
carry. -/
theorem decodeAndEncodeAgree : Obligations.DecodeAndEncodeAgree :=
  ⟨fun _ => decode_encode, fun _ _ => encode_injective, decode_encode_setSpeed,
    fun b => ⟨decode_wellFormed b, tag_encode_decode b, aux_encode_decode b⟩⟩

/-! ## The opcode table -/

/-- Every row looks at the tag alone (R56). -/
theorem covers_congr {r : OpcodeRow} (hr : r ∈ opcodeTable) {b b' : Byte} (h : b &&& 7#8 = b' &&& 7#8) :
    r.covers b = r.covers b' := by
  obtain ⟨i, -, rfl⟩ := List.mem_map.1 hr
  have hmask : i.row.mask = 7#8 := by cases i <;> rfl
  rw [OpcodeRow.covers, OpcodeRow.covers, hmask, h]

theorem rowOfByte (i : Instr) : Laws.RowOfByte.Statement i := by
  cases i with
  | forward => exact Laws.RowOfByte.forward
  | backward => exact Laws.RowOfByte.backward
  | left => exact Laws.RowOfByte.left
  | right => exact Laws.RowOfByte.right
  | stop => exact Laws.RowOfByte.stop
  | setSpeed v => exact Laws.RowOfByte.setSpeed v
  | reserved6 => exact Laws.RowOfByte.reserved6
  | reserved7 => exact Laws.RowOfByte.reserved7

/-- A byte is covered by the rows that cover the byte of its command, which is the command's row alone (R58). -/
theorem filter_covers (b : Byte) : opcodeTable.filter (fun r => r.covers b) = [(decode b).row] := by
  have hmask : b &&& 7#8 = encode (decode b) &&& 7#8 := and_seven_eq_iff.2 (tag_encode_decode b).symm
  rw [List.filter_congr fun r hr => covers_congr hr hmask]
  exact rowOfByte (decode b)

theorem tag_count (k : BitVec 3) : ((List.range 256).filter fun n => tag (BitVec.ofNat 8 n) == k).length = 32 := by
  revert k
  decide

/-- Settles O6: the rows that cover a byte are those of its command's own byte. -/
theorem everyByteIsOneRowAndTagsAreEven : Obligations.EveryByteIsOneRowAndTagsAreEven :=
  ⟨filter_covers, tag_count⟩

/-- Settles O4: the encoder's bytes, written out. -/
theorem directivesHaveTheirBytes : Obligations.DirectivesHaveTheirBytes :=
  ⟨rfl, rfl, rfl, rfl, rfl, fun _ => rfl⟩

/-- Settles O7: the decoder evaluated at each byte. -/
theorem writtenOutBytesDecode : Obligations.WrittenOutBytesDecode := by
  unfold Obligations.WrittenOutBytesDecode
  decide

end Sys2Proof

/-! SUPPORT. The tick function of R90 (spec/43_tick_step_and_pwm.md). A tick without reset is described by what it writes: whether it
kicks, a pair of directions or none, a duty or none. The machine's commands, the transcription of R90 and the step are all that
one tick, so later proofs speak of it alone. -/

namespace Sys2Proof.Machine

/-! ## What a command writes -/

/-- The pair of directions a command writes, if it writes one (R70 to R74). -/
def commandPair : Instr → Option (DirReg × DirReg)
  | .forward => some (.forward, .forward)
  | .backward => some (.backward, .backward)
  | .left => some (.backward, .forward)
  | .right => some (.forward, .backward)
  | .stop => some (.stopped, .stopped)
  | .setSpeed _ | .reserved6 | .reserved7 => none

/-- The duty a command writes, if it writes one (R81). -/
def commandDuty : Instr → Option Byte
  | .setSpeed v => some (dutyOperand v)
  | .forward | .backward | .left | .right | .stop | .reserved6 | .reserved7 => none

theorem commandWrite_eq (i : Instr) (S : Block) :
    commandWrite i S =
      { S with
          lDir := ((commandPair i).getD (S.lDir, S.rDir)).1
          rDir := ((commandPair i).getD (S.lDir, S.rDir)).2
          duty := (commandDuty i).getD S.duty } := by
  cases i <;> rfl

/-! ## A tick by what it writes -/

/-- The block after a tick without reset that kicks or not, and whose command writes the given pair of directions and the given
duty, each if at all (R90). -/
def Block.ticked (T : Nat) (kick : Bool) (pair : Option (DirReg × DirReg)) (duty : Option Byte) (S : Block) : Block :=
  let wd := if kick then 0 else min (S.wdCnt + 1) T
  { lDir := if wd = T then .stopped else (pair.getD (S.lDir, S.rDir)).1
    rDir := if wd = T then .stopped else (pair.getD (S.lDir, S.rDir)).2
    duty := duty.getD S.duty
    pwmEn := S.pwmEn
    pwmCnt := S.pwmCnt + 1#8
    wdCnt := wd }

section ticked

variable (T : Nat) (kick : Bool) (pair : Option (DirReg × DirReg)) (duty : Option Byte) (S : Block)

theorem ticked_lDir : (S.ticked T kick pair duty).lDir =
    if (S.ticked T kick pair duty).wdCnt = T then .stopped else (pair.getD (S.lDir, S.rDir)).1 := rfl
theorem ticked_rDir : (S.ticked T kick pair duty).rDir =
    if (S.ticked T kick pair duty).wdCnt = T then .stopped else (pair.getD (S.lDir, S.rDir)).2 := rfl
@[simp] theorem ticked_duty : (S.ticked T kick pair duty).duty = duty.getD S.duty := rfl
@[simp] theorem ticked_pwmEn : (S.ticked T kick pair duty).pwmEn = S.pwmEn := rfl
@[simp] theorem ticked_pwmCnt : (S.ticked T kick pair duty).pwmCnt = S.pwmCnt + 1#8 := rfl
@[simp] theorem ticked_wdCnt : (S.ticked T kick pair duty).wdCnt = if kick then 0 else min (S.wdCnt + 1) T := rfl

theorem ticked_pwmCnt_toNat : (S.ticked T kick pair duty).pwmCnt.toNat = (S.pwmCnt.toNat + 1) % 256 :=
  countPwm_toNat S

theorem tick_commandWrite (i : Instr) :
    S.tick T kick (commandWrite i) = S.ticked T kick (commandPair i) (commandDuty i) := by
  rw [Block.tick, watchdogAction_eq, commandWrite_eq]
  rfl

theorem idleTick_eq_ticked : S.idleTick T = S.ticked T false none none :=
  tick_commandWrite T false S .reserved6

variable {T kick pair duty S}

/-- The count after a tick is within the period, whatever it was before (R26, R107). -/
theorem ticked_wdCnt_le : (S.ticked T kick pair duty).wdCnt ≤ T := by
  rw [ticked_wdCnt]
  split <;> omega

/-- With the new count at the period both motors are stopped, whatever the command wrote (R110). -/
theorem ticked_stopped_of_wdCnt_eq (h : (S.ticked T kick pair duty).wdCnt = T) : (S.ticked T kick pair duty).Stopped :=
  ⟨(ticked_lDir ..).trans (if_pos h), (ticked_rDir ..).trans (if_pos h)⟩

/-- Below the period the directions are the command's, or else the old ones (R90). -/
theorem ticked_dirs_of_wdCnt_ne (h : (S.ticked T kick pair duty).wdCnt ≠ T) :
    ((S.ticked T kick pair duty).lDir, (S.ticked T kick pair duty).rDir) = pair.getD (S.lDir, S.rDir) :=
  Prod.ext ((ticked_lDir ..).trans (if_neg h)) ((ticked_rDir ..).trans (if_neg h))

end ticked

theorem exec_eq_ticked (i : Instr) (s : State) :
    exec i s = .next (s.onBlock (Block.ticked Config.wdPeriod (commandKicks i) (commandPair i) (commandDuty i))) := by
  rw [exec_eq_tick]
  congr 2
  funext S
  exact tick_commandWrite _ _ S i

/-! ## The transcription of R90 writes the same -/

/-- The pair of directions written at ports that carry `cmd`. -/
def portPair (cmd : Option Byte) : Option (DirReg × DirReg) := cmd.bind fun b => commandPair (decode b)

/-- The duty written at ports that carry `cmd`. -/
def portDuty (cmd : Option Byte) : Option Byte := cmd.bind fun b => commandDuty (decode b)

@[simp] theorem portPair_some (b : Byte) : portPair (some b) = commandPair (decode b) := rfl
@[simp] theorem portDuty_some (b : Byte) : portDuty (some b) = commandDuty (decode b) := rfl

/-- The dispatch of R92 is the decoder's. -/
theorem dispatchCmd_eq (cmd : Option Byte) (l r : DirReg) (d : Byte) :
    dispatchCmd cmd l r d =
      (((portPair cmd).getD (l, r)).1, ((portPair cmd).getD (l, r)).2, (portDuty cmd).getD d) := by
  cases cmd with
  | none => rfl
  | some b =>
    have hspeed : dutyOperand (speedBits b) = b &&& 0b1111_1000#8 := speedBits_idem b
    unfold dispatchCmd portPair portDuty decode
    dsimp only [Option.bind]
    split <;> simp [*, commandPair, commandDuty, DirReg.forward, DirReg.backward, DirReg.stopped]

/-- Without reset the transcribed tick writes what the command at the ports writes (R90). -/
theorem tickWithKicks_no_reset (kicks : Byte → Bool) (T : Nat) (S : Block) (cmd : Option Byte) :
    tickWithKicks kicks T S false cmd = S.ticked T (cmd.any kicks) (portPair cmd) (portDuty cmd) := by
  have hcnt : BitVec.ofNat 8 ((S.pwmCnt.toNat + 1) % 256) = S.pwmCnt + 1#8 := by
    rw [← countPwm_toNat, BitVec.ofNat_toNat, BitVec.setWidth_eq]
    rfl
  unfold tickWithKicks
  rw [dispatchCmd_eq, hcnt]
  cases cmd <;> rfl

theorem kickTag_iff_tag_mem {b : Byte} : kickTag b = true ↔ tag b ∈ [0#3, 1#3, 2#3, 3#3, 5#3] := by
  rw [kickTag, ← tag_toNat]
  generalize tag b = k
  revert k
  decide

/-- Bytes of the other three tags do not kick (R74, R87). -/
theorem not_kickTag_of_tag_mem {b : Byte} (h : tag b ∈ [4#3, 6#3, 7#3]) : kickTag b = false := by
  rw [← Bool.not_eq_true, kickTag_iff_tag_mem]
  revert h
  generalize tag b = k
  revert k
  decide

/-- The kick set of R108 is that of the commands. -/
theorem kickTag_eq_commandKicks (b : Byte) : kickTag b = commandKicks (decode b) := by
  rw [Bool.eq_iff_iff, kickTag_iff_tag_mem]
  rcases decode_cases b with ⟨ht, hd⟩ | ⟨ht, hd⟩ | ⟨ht, hd⟩ | ⟨ht, hd⟩ | ⟨ht, hd⟩ | ⟨ht, hd⟩ | ⟨ht, hd⟩ | ⟨ht, hd⟩ <;>
    simp [ht, hd, commandKicks]

/-- The transcribed tick at a byte is the tick of the byte's command (R90, R92). -/
theorem blockStep_byte (T : Nat) (S : Block) (b : Byte) :
    blockStep T S false (some b) =
      S.ticked T (commandKicks (decode b)) (commandPair (decode b)) (commandDuty (decode b)) := by
  rw [blockStep, tickWithKicks_no_reset, ← kickTag_eq_commandKicks]
  rfl

/-- The transcribed tick without a byte is the idle tick (R93). -/
theorem blockStep_none (T : Nat) (S : Block) : blockStep T S false none = S.idleTick T := by
  rw [blockStep, tickWithKicks_no_reset, idleTick_eq_ticked]
  rfl

/-- The byte of a command is decoded to the command itself, or to one with the same tick (R65). -/
theorem blockStep_encode (T : Nat) (S : Block) (i : Instr) :
    blockStep T S false (some (encode i)) = S.ticked T (commandKicks i) (commandPair i) (commandDuty i) := by
  rw [blockStep_byte]
  cases i with
  | setSpeed v =>
    rw [decode_encode_setSpeed, commandDuty, dutyOperand, speedBits_idem]
    rfl
  | _ => rfl

/-- Settles O23: the command's tick and the transcription at its byte are one tick by what they write. -/
theorem meaningIsTheTickFunction : Obligations.MeaningIsTheTickFunction := by
  intro i s
  rw [exec_eq_ticked, blockStep_encode]
  rfl

/-! ## The step -/

/-- The state after a tick, as the spec's tick function gives it (R36, R90). -/
def State.ticked (s : State) : State where
  block := blockStep Config.wdPeriod s.block s.portIn.rst s.portIn.cmd
  inputs := s.inputs.tail

/-- Settles O24: a reset, an idle tick and a byte are the three branches of both. -/
theorem stepIsTheTickFunction : Obligations.StepIsTheTickFunction := by
  intro s
  unfold step
  cases s.portIn.rst with
  | true => rfl
  | false =>
    cases s.portIn.cmd with
    | none => rw [blockStep_none]; rfl
    | some b => rw [blockStep_byte]; exact exec_eq_ticked (decode b) s.consume

theorem step_eq_ticked (s : State) : step s = .next s.ticked := stepIsTheTickFunction s

theorem eq_ticked_of_step {s t : State} (h : step s = .next t) : t = s.ticked :=
  (Host.Outcome.next.inj ((step_eq_ticked s).symm.trans h)).symm

/-- The state after the coming tick, by the ports of that tick. -/
theorem step_of_inputs {s : State} {p : PortIn} {rest : List PortIn} (h : s.inputs = p :: rest) :
    step s = .next { block := blockStep Config.wdPeriod s.block p.rst p.cmd, inputs := rest } := by
  rw [step_eq_ticked, State.ticked, portIn_cons h, h]
  rfl

/-- Settles O22: the tick function at a byte is the byte's command. -/
theorem stepRunsTheDecodedCommand : Obligations.StepRunsTheDecodedCommand := by
  intro s b rest h
  rw [step_of_inputs h, exec_eq_ticked]
  exact congrArg (fun S => Host.Outcome.next (State.mk S rest)) (blockStep_byte _ s.block b)

/-- Settles O27: the tick function without a byte is the idle tick. -/
theorem idleTickMovesOnlyTheCounters : Obligations.IdleTickMovesOnlyTheCounters := by
  refine fun s d rest h => ⟨_, step_of_inputs h, ?_⟩
  have hidle : blockStep Config.wdPeriod s.block false none = s.block.ticked Config.wdPeriod false none none := by
    rw [blockStep_none, idleTick_eq_ticked]
  rw [PortIn.cmd, if_neg Bool.false_ne_true, hidle]
  exact ⟨ticked_pwmCnt_toNat .., rfl, rfl, rfl, rfl, rfl, rfl⟩

/-- Settles O28: an empty list has the silent ports in front and stays empty. -/
theorem emptyInputsAreASilentHost : Obligations.EmptyInputsAreASilentHost := by
  intro s h
  have hempty : step s = .next { block := blockStep Config.wdPeriod s.block false none, inputs := [] } := by
    rw [step_eq_ticked, State.ticked, State.portIn, h]
    rfl
  have hidle : step { s with inputs := [.idle] } =
      .next { block := blockStep Config.wdPeriod s.block false none, inputs := [] } := step_of_inputs (p := .idle) rfl
  exact ⟨hempty.trans hidle.symm, _, hempty, rfl⟩

/-- Settles O29: the tick function looks at nothing else once it sees reset. -/
theorem resetWinsOverEverything : Obligations.ResetWinsOverEverything :=
  fun _ _ _ _ h => step_of_inputs h

end Sys2Proof.Machine

/-! SUPPORT. Runs (R94). A run is the iterate of the tick function on the state beside its inputs, and its block is the fold of the
transcription over the inputs; the two inductions that later proofs need, over one run and over two, are said once of the fold. -/

namespace Sys2Proof.Machine

/-! ## The inputs of a run -/

section inputs

variable (s : State)

theorem portIn_eq_inputAt_zero : s.portIn = s.inputAt 0 := by
  unfold State.portIn State.inputAt
  cases s.inputs <;> rfl

@[simp] theorem inputsFor_length (n : Nat) : (s.inputsFor n).length = n := by simp [State.inputsFor]

theorem inputsFor_succ (n : Nat) : s.inputsFor (n + 1) = s.inputsFor n ++ [s.inputAt n] := by
  simp [State.inputsFor, List.range_succ]

theorem mem_inputsFor {n : Nat} {p : PortIn} : p ∈ s.inputsFor n ↔ ∃ k < n, s.inputAt k = p := by
  simp [State.inputsFor]

theorem forall_mem_inputsFor {n : Nat} {P : PortIn → Prop} :
    (∀ p ∈ s.inputsFor n, P p) ↔ ∀ k < n, P (s.inputAt k) := by
  simp [State.inputsFor]

variable {s}

/-- What the host presents is on its list or is silence. -/
theorem mem_take_or_idle_of_mem_inputsFor {n : Nat} {p : PortIn} (h : p ∈ s.inputsFor n) :
    p ∈ s.inputs.take n ∨ p = .idle := by
  obtain ⟨k, hk, rfl⟩ := (mem_inputsFor s).1 h
  by_cases hlen : k < s.inputs.length
  · left
    rw [State.inputAt, List.getD_eq_getElem _ _ hlen, List.mem_take_iff_getElem]
    exact ⟨k, by omega, rfl⟩
  · right
    exact List.getD_eq_default _ _ (by omega)

/-- Equal lists of inputs are equal inputs at every tick. -/
theorem inputsFor_congr {s' : State} (h : s.inputs = s'.inputs) (n : Nat) : s.inputsFor n = s'.inputsFor n := by
  simp [State.inputsFor, State.inputAt, h]

end inputs

/-! ## The tick function folded over a list of inputs -/

section run

variable {kicks kicks' : Byte → Bool} {T : Nat} {S : Block}

theorem runFunction_cons (p : PortIn) (ins : List PortIn) :
    S.runFunction kicks T (p :: ins) = (tickWithKicks kicks T S p.rst p.cmd).runFunction kicks T ins := rfl

theorem runFunction_append (ins ins' : List PortIn) :
    S.runFunction kicks T (ins ++ ins') = (S.runFunction kicks T ins).runFunction kicks T ins' :=
  List.foldl_append

/-- What every tick of a run keeps holds at its end. -/
theorem runFunction_keeps {P : Block → Prop} {ins : List PortIn}
    (keeps : ∀ p ∈ ins, ∀ S, P S → P (tickWithKicks kicks T S p.rst p.cmd)) (h : P S) : P (S.runFunction kicks T ins) :=
  List.foldlRecOn ins _ h fun S hS p hp => keeps p hp S hS

/-- What every tick keeps between two runs over the same inputs holds between their ends. -/
theorem runFunction_keeps_rel {R : Block → Block → Prop} {S' : Block} {ins : List PortIn}
    (keeps : ∀ p ∈ ins, ∀ S S', R S S' → R (tickWithKicks kicks T S p.rst p.cmd) (tickWithKicks kicks' T S' p.rst p.cmd))
    (h : R S S') : R (S.runFunction kicks T ins) (S'.runFunction kicks' T ins) :=
  List.foldl_rel h fun p hp S S' => keeps p hp S S'

end run

/-! ## The run of the machine -/

/-- A run of the host's interface goes on from what its first step answers. -/
theorem core_run_succ {M : Host.Core} {s t : M.State} (h : M.step s = .next t) (n : Nat) :
    M.run (n + 1) s = M.run n t := by
  rw [Host.Core.run, h]

section after

variable (s : State)

theorem after_one : s.after 1 = s.ticked := by
  rw [State.after, step_eq_ticked]
  rfl

theorem after_eq_iterate (n : Nat) : s.after n = State.ticked^[n] s := by
  induction n generalizing s with
  | zero => rfl
  | succ n ih =>
    rw [State.after, step_eq_ticked]
    exact ih s.ticked

theorem after_add (m n : Nat) : s.after (m + n) = (s.after m).after n := by
  rw [after_eq_iterate, Nat.add_comm, Function.iterate_add_apply, ← after_eq_iterate, ← after_eq_iterate]

theorem after_succ (n : Nat) : s.after (n + 1) = (s.after n).ticked := by
  rw [after_add, after_one]

/-- Each tick takes one entry off the host's list (R36). -/
theorem after_inputs (n : Nat) : (s.after n).inputs = s.inputs.drop n := by
  induction n with
  | zero => rfl
  | succ n ih => rw [after_succ, State.ticked, ih, List.tail_drop]

theorem inputAt_after (m k : Nat) : (s.after m).inputAt k = s.inputAt (m + k) := by
  simp [State.inputAt, after_inputs]

/-- One more tick is the tick function at that tick's ports (R90, R94). -/
theorem after_succ_block (n : Nat) :
    (s.after (n + 1)).block =
      blockStep Config.wdPeriod (s.after n).block (s.inputAt n).rst (s.inputAt n).cmd := by
  rw [after_succ, State.ticked, portIn_eq_inputAt_zero, inputAt_after, Nat.add_zero]

theorem after_block_eq_runFunction (n : Nat) :
    (s.after n).block = s.block.runFunction kickTag Config.wdPeriod (s.inputsFor n) := by
  induction n with
  | zero => rfl
  | succ n ih =>
    rw [after_succ_block, inputsFor_succ, runFunction_append, ← ih]
    rfl

/-- What the tick function keeps between two blocks under the same ports holds along the runs of two states with the same
inputs. -/
theorem after_keeps_rel {R : Block → Block → Prop} {s s' : State} (hin : s.inputs = s'.inputs)
    (keeps : ∀ (p : PortIn) (S S' : Block), R S S' →
      R (blockStep Config.wdPeriod S p.rst p.cmd) (blockStep Config.wdPeriod S' p.rst p.cmd))
    (h : R s.block s'.block) (n : Nat) : R (s.after n).block (s'.after n).block := by
  rw [after_block_eq_runFunction, after_block_eq_runFunction, inputsFor_congr hin]
  exact runFunction_keeps_rel (fun p _ => keeps p) h

/-- The host's interface goes through the same states and never stops (R94). -/
theorem run_eq_after (n : Nat) : Host.Core.run core n s = .next (s.after n) := by
  induction n generalizing s with
  | zero => rfl
  | succ n ih =>
    rw [Nat.add_comm n 1, after_add, after_one, ← ih, Nat.add_comm 1 n]
    exact core_run_succ (step_eq_ticked s) n

end after

/-- Settles O25: by induction on the ticks, each of which is the tick function at its ports. -/
theorem everyRunIsTheFoldOfTheTickFunction : Obligations.EveryRunIsTheFoldOfTheTickFunction :=
  fun n s => ⟨run_eq_after s n, after_block_eq_runFunction s n, after_succ_block s n, after_inputs s n⟩

theorem tickWithKicks_wdCnt_le (kicks : Byte → Bool) (T : Nat) (S : Block) (rst : Bool) (cmd : Option Byte) :
    (tickWithKicks kicks T S rst cmd).wdCnt ≤ T := by
  cases rst with
  | true => exact Nat.zero_le T
  | false =>
    rw [tickWithKicks_no_reset]
    exact ticked_wdCnt_le

/-- Settles O26: every step is the tick function, whose count never exceeds the period. -/
theorem noStepStopsAndCountStaysInPeriod : Obligations.NoStepStopsAndCountStaysInPeriod := by
  refine ⟨fun s => ⟨_, step_eq_ticked s⟩, fun n s hs => ⟨_, run_eq_after s n, ?_⟩⟩
  rw [after_block_eq_runFunction]
  exact runFunction_keeps (P := fun S => S.wdCnt ≤ Config.wdPeriod) (fun _ _ S _ => tickWithKicks_wdCnt_le _ _ S _ _) hs

end Sys2Proof.Machine

/-! SUPPORT. The watchdog (spec/60_exceptions.md). Quiet ticks count and start no motor; a count at the period means stopped motors;
from these two come the timing law, the fail-safe and the half second of the source. -/

namespace Sys2Proof.Machine

/-! ## Quiet ticks -/

theorem stopped_iff {S : Block} : S.Stopped ↔ (S.lDir, S.rDir) = (.stopped, .stopped) := by
  rw [Prod.mk.injEq]
  rfl

/-- A tick whose command stops both motors, or leaves them stopped, leaves them stopped whether or not the watchdog acts. -/
theorem ticked_stopped {T : Nat} {kick : Bool} {pair : Option (DirReg × DirReg)} {duty : Option Byte} {S : Block}
    (h : pair.getD (S.lDir, S.rDir) = (.stopped, .stopped)) : (S.ticked T kick pair duty).Stopped := by
  by_cases hwd : (S.ticked T kick pair duty).wdCnt = T
  · exact ticked_stopped_of_wdCnt_eq hwd
  · exact stopped_iff.2 ((ticked_dirs_of_wdCnt_ne hwd).trans h)

theorem quiet_iff {p : PortIn} : p.quiet = true ↔ p.rst = false ∧ p.cmd.any kickTag = false := by
  unfold PortIn.quiet PortIn.kicks
  cases p.rst <;> cases p.cmd <;> simp

/-- A command that does not kick writes no duty (R74, R85, R86). -/
theorem commandDuty_of_not_kicks {i : Instr} (h : commandKicks i = false) : commandDuty i = none := by
  cases i with
  | setSpeed v => cases h
  | _ => rfl

/-- Of the bytes that drive no motor, `Stop` alone writes directions (R74, R81, R85, R86). -/
theorem commandPair_of_not_drive {b : Byte} (h : tag b ∉ [0#3, 1#3, 2#3, 3#3]) :
    commandPair (decode b) = if tag b = 4#3 then some (.stopped, .stopped) else none := by
  rcases decode_cases b with ⟨ht, hd⟩ | ⟨ht, hd⟩ | ⟨ht, hd⟩ | ⟨ht, hd⟩ | ⟨ht, hd⟩ | ⟨ht, hd⟩ | ⟨ht, hd⟩ | ⟨ht, hd⟩ <;>
    simp_all [commandPair]

/-- The bytes that drive a motor kick (R77, R108). -/
theorem not_drive_of_not_kickTag {b : Byte} (h : kickTag b = false) : tag b ∉ [0#3, 1#3, 2#3, 3#3] := by
  rw [← Bool.not_eq_true, kickTag_iff_tag_mem] at h
  simp_all

/-- The ports carry a `Stop` byte. -/
def PortIn.Stops (p : PortIn) : Prop := ∃ b ∈ p.cmd, tag b = 4#3

section quiet

variable {p : PortIn} {ins : List PortIn} {T : Nat} {S : Block}

theorem portDuty_of_quiet (h : p.quiet = true) : portDuty p.cmd = none := by
  obtain ⟨-, hkick⟩ := quiet_iff.1 h
  cases hcmd : p.cmd with
  | none => rfl
  | some b =>
    rw [hcmd, Option.any_some, kickTag_eq_commandKicks] at hkick
    exact commandDuty_of_not_kicks hkick

theorem portPair_of_stops (h : p.Stops) : portPair p.cmd = some (.stopped, .stopped) := by
  obtain ⟨b, hb, htag⟩ := h
  have hdrive : tag b ∉ [0#3, 1#3, 2#3, 3#3] := by rw [htag]; decide
  rw [hb, portPair_some, commandPair_of_not_drive hdrive, if_pos htag]

theorem portPair_of_quiet (h : p.quiet = true) (hstop : ¬ p.Stops) : portPair p.cmd = none := by
  obtain ⟨-, hkick⟩ := quiet_iff.1 h
  cases hcmd : p.cmd with
  | none => rfl
  | some b =>
    rw [hcmd] at hkick
    exact (commandPair_of_not_drive (not_drive_of_not_kickTag hkick)).trans (if_neg fun htag => hstop ⟨b, hcmd, htag⟩)

/-- All that a quiet tick can do (R107, R110). -/
theorem tick_of_quiet (h : p.quiet = true) :
    tickWithKicks kickTag T S p.rst p.cmd = S.ticked T false (portPair p.cmd) none := by
  obtain ⟨hrst, hkick⟩ := quiet_iff.1 h
  rw [hrst, tickWithKicks_no_reset, hkick, portDuty_of_quiet h]

theorem stopped_of_stops (h : p.quiet = true) (hstop : p.Stops) :
    (tickWithKicks kickTag T S p.rst p.cmd).Stopped := by
  rw [tick_of_quiet h, portPair_of_stops hstop]
  exact ticked_stopped rfl

/-- A quiet tick starts no motor (R114). -/
theorem stopped_of_quiet (h : p.quiet = true) (hS : S.Stopped) : (tickWithKicks kickTag T S p.rst p.cmd).Stopped := by
  by_cases hstop : p.Stops
  · exact stopped_of_stops h hstop
  · rw [tick_of_quiet h, portPair_of_quiet h hstop]
    exact ticked_stopped (stopped_iff.1 hS)

/-! ## Quiet runs -/

/-- Over quiet ticks the watchdog counts every tick, saturating at the period (R107). -/
theorem wdCnt_run_of_quiet (h : ∀ p ∈ ins, p.quiet = true) (hS : S.wdCnt ≤ T) :
    (S.runFunction kickTag T ins).wdCnt = min (S.wdCnt + ins.length) T := by
  induction ins generalizing S with
  | nil => exact (min_eq_left hS).symm
  | cons p ins ih =>
    obtain ⟨hp, hins⟩ := List.forall_mem_cons.1 h
    have hwd : (tickWithKicks kickTag T S p.rst p.cmd).wdCnt = min (S.wdCnt + 1) T := by
      rw [tick_of_quiet hp]
      rfl
    rw [runFunction_cons, ih hins (by omega), hwd, List.length_cons]
    omega

theorem stopped_run_of_quiet (h : ∀ p ∈ ins, p.quiet = true) (hS : S.Stopped) :
    (S.runFunction kickTag T ins).Stopped :=
  runFunction_keeps (fun p hp _ => stopped_of_quiet (h p hp)) hS

theorem duty_run_of_quiet (h : ∀ p ∈ ins, p.quiet = true) : (S.runFunction kickTag T ins).duty = S.duty := by
  refine runFunction_keeps (P := fun S' => S'.duty = S.duty) (fun p hp S' hS' => ?_) rfl
  rw [tick_of_quiet (h p hp)]
  exact hS'

/-- A `Stop` among quiet ticks leaves the motors stopped to their end (R74, R111). -/
theorem stopped_run_of_stops (h : ∀ p ∈ ins, p.quiet = true) (hstop : ∃ p ∈ ins, p.Stops) :
    (S.runFunction kickTag T ins).Stopped := by
  obtain ⟨p, hp, hstops⟩ := hstop
  obtain ⟨before, rest, rfl⟩ := List.append_of_mem hp
  rw [runFunction_append, runFunction_cons]
  exact stopped_run_of_quiet (fun q hq => h q (by simp [hq])) (stopped_of_stops (h p hp) hstops)

/-- Short of the period, quiet ticks without `Stop` leave the directions alone (R111). -/
theorem dirs_run_of_quiet (h : ∀ p ∈ ins, p.quiet = true) (hstop : ∀ p ∈ ins, ¬ p.Stops)
    (hlen : S.wdCnt + ins.length < T) :
    (S.runFunction kickTag T ins).lDir = S.lDir ∧ (S.runFunction kickTag T ins).rDir = S.rDir := by
  induction ins generalizing S with
  | nil => exact ⟨rfl, rfl⟩
  | cons p ins ih =>
    obtain ⟨hp, hins⟩ := List.forall_mem_cons.1 h
    obtain ⟨hpstop, hinsstop⟩ := List.forall_mem_cons.1 hstop
    rw [List.length_cons] at hlen
    rw [runFunction_cons, tick_of_quiet hp, portPair_of_quiet hp hpstop]
    have hwd : (S.ticked T false none none).wdCnt = S.wdCnt + 1 := min_eq_left (by omega)
    have hne : (S.ticked T false none none).wdCnt ≠ T := by omega
    obtain ⟨hl, hr⟩ := ih hins hinsstop (S := S.ticked T false none none) (by omega)
    exact ⟨hl.trans (if_neg hne), hr.trans (if_neg hne)⟩

end quiet

/-! ## The fail-safe -/

/-- A count at the period means stopped motors (R35 (f), R104). -/
def Block.FailSafe (T : Nat) (S : Block) : Prop := S.wdCnt = T → S.Stopped

section failSafe

variable {kicks : Byte → Bool} {T : Nat} {S : Block} {ins : List PortIn}

theorem tickWithKicks_failSafe (S : Block) (rst : Bool) (cmd : Option Byte) :
    (tickWithKicks kicks T S rst cmd).FailSafe T := by
  cases rst with
  | true => exact fun _ => ⟨rfl, rfl⟩
  | false =>
    rw [tickWithKicks_no_reset]
    exact ticked_stopped_of_wdCnt_eq

/-- As many quiet ticks as the period has, or more, stop the motors, from any count (R123). -/
theorem stopped_run_of_long_quiet (hT : 1 ≤ T) (h : ∀ p ∈ ins, p.quiet = true) (hlen : T ≤ ins.length) :
    (S.runFunction kickTag T ins).Stopped := by
  cases ins with
  | nil => exact absurd (hT.trans hlen) (Nat.not_succ_le_zero 0)
  | cons p ins =>
    obtain ⟨hp, hins⟩ := List.forall_mem_cons.1 h
    rw [List.length_cons] at hlen
    have hwd : (tickWithKicks kickTag T S p.rst p.cmd).wdCnt = min (S.wdCnt + 1) T := by
      rw [tick_of_quiet hp]
      rfl
    have hend := wdCnt_run_of_quiet hins (tickWithKicks_wdCnt_le kickTag T S p.rst p.cmd)
    have hsafe : ((tickWithKicks kickTag T S p.rst p.cmd).runFunction kickTag T ins).FailSafe T :=
      runFunction_keeps (fun _ _ S _ => tickWithKicks_failSafe S _ _) (tickWithKicks_failSafe S _ _)
    exact hsafe (hend.trans (by omega))

end failSafe

/-! ## The timing of the watchdog -/

theorem quietFor_iff {s : State} {n : Nat} : s.QuietFor n ↔ ∀ p ∈ s.inputsFor n, p.quiet = true :=
  (forall_mem_inputsFor s (P := (·.quiet = true))).symm

/-- Settles O38: the count reaches the period, and with the count there the motors are stopped. -/
theorem silenceStopsTheMotors : Obligations.SilenceStopsTheMotors := by
  intro s n h
  have hlen : Config.wdPeriod ≤ (s.inputsFor (Config.wdPeriod + n)).length := by simp
  obtain ⟨hl, hr⟩ := stopped_run_of_long_quiet (S := s.block) wdPeriod_pos (quietFor_iff.1 h) hlen
  rw [← after_block_eq_runFunction] at hl hr
  simp [Pins.DirectionLow, hl, hr, DirReg.stopped]

/-- A kicking tick clears the count (R108). -/
theorem ticked_wdCnt_of_kicks {s : State} (h : (s.inputAt 0).kicks = true) : s.ticked.block.wdCnt = 0 := by
  rw [← portIn_eq_inputAt_zero] at h
  have hkick : s.portIn.rst = false ∧ s.portIn.cmd.any kickTag = true := by
    unfold PortIn.kicks at h
    cases hcmd : s.portIn.cmd <;> simp_all
  obtain ⟨hrst, hany⟩ := hkick
  rw [State.ticked, hrst, blockStep, tickWithKicks_no_reset, ticked_wdCnt, if_pos hany]

/-- Settles O37: after the kick the count is the number of quiet ticks, which stop the motors at the period or by a `Stop`, and
else leave them alone. -/
theorem motionLastsExactlyThePeriod : Obligations.MotionLastsExactlyThePeriod := by
  intro s n hkick hn hquiet
  have hwd : (s.after 1).block.wdCnt = 0 := by rw [after_one, ticked_wdCnt_of_kicks hkick]
  have hins := quietFor_iff.1 hquiet
  rw [after_add, after_block_eq_runFunction]
  refine ⟨?count, ?stopped, ?kept⟩
  case count =>
    rw [wdCnt_run_of_quiet hins (by omega), inputsFor_length]
    omega
  case stopped =>
    rintro (rfl | ⟨k, hk, hstop⟩)
    · exact stopped_run_of_long_quiet wdPeriod_pos hins (inputsFor_length _ _).ge
    · exact stopped_run_of_stops hins ⟨_, (mem_inputsFor _).2 ⟨k, hk, rfl⟩, hstop⟩
  case kept =>
    rintro ⟨hne, hstop⟩
    refine dirs_run_of_quiet hins ((forall_mem_inputsFor _).2 fun k hk ⟨b, hb, htag⟩ => hstop k hk b hb htag) ?_
    rw [inputsFor_length]
    omega

/-! ## Half a second in real time (S7) -/

/-- At 1 ms a tick or less, 499 ms are fewer ticks than the period. -/
theorem lt_period_of_le_499_ms {fTick : ℚ} {T n : Nat} (hT : RealTimePeriod fTick T) (hf : 1000 ≤ fTick)
    (hn : (n : ℚ) / fTick ≤ 499 / 1000) : n < T := by
  obtain ⟨hpos, -, hround⟩ := hT
  have hticks : (n : ℚ) ≤ 499 / 1000 * fTick := (div_le_iff₀ hpos).1 hn
  have hlow : -(1 / 2) ≤ (T : ℚ) - fTick / 2 := (abs_le.1 hround).1
  have hlt : (n : ℚ) < T := by linarith
  exact_mod_cast hlt

/-- At 1 ms a tick or less, 501 ms are as many ticks as the period or more. -/
theorem period_le_of_501_ms_le {fTick : ℚ} {T n : Nat} (hT : RealTimePeriod fTick T) (hf : 1000 ≤ fTick)
    (hn : 501 / 1000 ≤ (n : ℚ) / fTick) : T ≤ n := by
  obtain ⟨hpos, -, hround⟩ := hT
  have hticks : 501 / 1000 * fTick ≤ (n : ℚ) := (le_div_iff₀ hpos).1 hn
  have hhigh : (T : ℚ) - fTick / 2 ≤ 1 / 2 := (abs_le.1 hround).2
  have hle : (T : ℚ) ≤ n := by linarith
  exact_mod_cast hle

theorem idle_not_stops : ¬ PortIn.idle.Stops := by
  rintro ⟨b, hb, -⟩
  cases hb

/-- Settles O43: 499 ms are short of the period and 501 ms reach it, so the timing of quiet runs decides. -/
theorem halfSecondTimeoutInRealTime : Obligations.HalfSecondTimeoutInRealTime := by
  intro fTick T hT hf b hwd n
  have hquiet : ∀ p ∈ List.replicate n PortIn.idle, p.quiet = true := by
    intro p hp
    rw [List.eq_of_mem_replicate hp]
    rfl
  refine ⟨fun hn => ?_, fun hn => ?_⟩
  · refine dirs_run_of_quiet hquiet (fun p hp => List.eq_of_mem_replicate hp ▸ idle_not_stops) ?_
    rw [hwd, List.length_replicate, Nat.zero_add]
    exact lt_period_of_le_499_ms hT hf hn
  · have hpos : 1 ≤ T := hT.2.1
    refine stopped_run_of_long_quiet hpos hquiet ?_
    rw [List.length_replicate]
    exact period_le_of_501_ms_le hT hf hn

/-! ## Whether `Stop` kicks -/

/-- Two blocks that show the same pins now and for ever: they differ in the watchdog count at most, and in that only while both
motors are stopped (R109). -/
def SameButCountWhileStopped (S S' : Block) : Prop :=
  ∃ w, S' = { S with wdCnt := w } ∧ (S.wdCnt = w ∨ S.Stopped)

theorem pins_eq_of_same {S S' : Block} (h : SameButCountWhileStopped S S') : S.pins = S'.pins := by
  obtain ⟨w, rfl, -⟩ := h
  rfl

/-- Ticks that write the same keep the relation, if they leave the motors stopped wherever they leave different counts. -/
theorem ticked_same {T w : Nat} {kick kick' : Bool} {pair : Option (DirReg × DirReg)} {duty : Option Byte} {S : Block}
    (hpair : (S.ticked T kick pair duty).wdCnt ≠ (({ S with wdCnt := w } : Block).ticked T kick' pair duty).wdCnt →
      pair.getD (S.lDir, S.rDir) = (.stopped, .stopped)) :
    SameButCountWhileStopped (S.ticked T kick pair duty) (({ S with wdCnt := w } : Block).ticked T kick' pair duty) := by
  by_cases hwd : (S.ticked T kick pair duty).wdCnt = (({ S with wdCnt := w } : Block).ticked T kick' pair duty).wdCnt
  · refine ⟨_, block_ext ?_ ?_ rfl rfl rfl rfl, .inl hwd⟩
    · rw [ticked_lDir, ← hwd, ticked_lDir]
    · rw [ticked_rDir, ← hwd, ticked_rDir]
  · have hS : (S.ticked T kick pair duty).Stopped := ticked_stopped (hpair hwd)
    have hS' : (({ S with wdCnt := w } : Block).ticked T kick' pair duty).Stopped := ticked_stopped (hpair hwd)
    exact ⟨(({ S with wdCnt := w } : Block).ticked T kick' pair duty).wdCnt,
      block_ext (hS'.1.trans hS.1.symm) (hS'.2.trans hS.2.symm) rfl rfl rfl rfl, .inr hS⟩

theorem tickWithKicks_same {T : Nat} (p : PortIn) {S S' : Block} (h : SameButCountWhileStopped S S') :
    SameButCountWhileStopped (tickWithKicks kickTag T S p.rst p.cmd) (tickWithKicks kickTagOrStop T S' p.rst p.cmd) := by
  obtain ⟨w, rfl, hcount⟩ := h
  have stopped_of_count_ne : min (S.wdCnt + 1) T ≠ min (w + 1) T → (S.lDir, S.rDir) = (.stopped, .stopped) :=
    fun hne => stopped_iff.1 (hcount.resolve_left fun heq => hne (by rw [heq]))
  cases p.rst with
  | true => exact ⟨_, rfl, .inl rfl⟩
  | false =>
    rw [tickWithKicks_no_reset, tickWithKicks_no_reset]
    refine ticked_same fun hne => ?_
    cases hcmd : p.cmd with
    | none =>
      rw [hcmd] at hne
      exact stopped_of_count_ne hne
    | some b =>
      rw [hcmd] at hne
      cases hkick : kickTag b with
      | true => simp [kickTagOrStop, hkick] at hne
      | false =>
        rw [portPair_some, commandPair_of_not_drive (not_drive_of_not_kickTag hkick)]
        split
        · rfl
        · next htag => exact stopped_of_count_ne (by simpa [kickTagOrStop, hkick, htag] using hne)

/-- Settles O40: the two runs stay the same but for a count that matters to stopped motors only. -/
theorem stopKickIsInvisibleOnThePins : Obligations.StopKickIsInvisibleOnThePins := by
  intro s n
  rw [after_block_eq_runFunction]
  exact pins_eq_of_same (runFunction_keeps_rel (fun p _ _ _ => tickWithKicks_same p) ⟨_, rfl, .inl rfl⟩)

/-- The tick before an expiry, both motors moving and a reserved byte at the ports. -/
def aboutToExpire : State where
  block := { Block.reset with lDir := .forward, rDir := .forward, wdCnt := Config.wdPeriodPred }
  inputs := [.byte 6#8]

theorem aboutToExpire_inv : aboutToExpire.block.Inv Config.wdPeriod where
  pair := by simp [Block.LegalPair, aboutToExpire]
  duty := rfl
  enabled := rfl
  count := Nat.le_succ _
  failSafe h := absurd h (Nat.ne_of_lt (Nat.lt_succ_self _))
  enables := rfl

/-- Settles O41: one tick before an expiry `Byte 0x06` lets it happen, and with the rejected reading would not. -/
theorem reservedKickWouldBeVisible : Obligations.ReservedKickWouldBeVisible := by
  refine ⟨aboutToExpire, 6#8, rfl, rfl, aboutToExpire_inv, ?expires, ?moves⟩
  case expires =>
    have hwd : (aboutToExpire.after 1).block.wdCnt = Config.wdPeriod := by
      rw [after_succ_block]
      exact min_self _
    have hsafe : (aboutToExpire.after 1).block.FailSafe Config.wdPeriod := by
      rw [after_succ_block]
      exact tickWithKicks_failSafe _ _ _
    obtain ⟨hl, hr⟩ := hsafe hwd
    simp [Pins.DirectionLow, hl, hr, DirReg.stopped]
  case moves =>
    have hl : (aboutToExpire.block.runFunction kickAnyByte Config.wdPeriod (aboutToExpire.inputsFor 1)).lDir = .forward :=
      if_neg (t := .stopped) zero_ne_wdPeriod
    rintro ⟨-, hlow, -⟩
    rw [pins_lDb, hl] at hlow
    cases hlow

/-! ## The count, tick by tick -/

/-- Settles O35: the tick function's count, with the kick set read by the tag. -/
theorem watchdogCountsFromTheLastKick : Obligations.WatchdogCountsFromTheLastKick := by
  intro s t h
  rw [eq_ticked_of_step h, State.ticked]
  cases s.portIn.rst with
  | true => rfl
  | false =>
    rw [blockStep, tickWithKicks_no_reset, ticked_wdCnt]
    cases s.portIn.cmd with
    | none => rfl
    | some b => simp only [Option.any_some, kickTag_iff_tag_mem, Bool.false_eq_true, if_false]

/-- A byte that kicks (R108, R112): its command's writes stand, whatever the count was. -/
theorem blockStep_of_kick {T : Nat} (hT : 1 ≤ T) {i : Instr} {b : Byte} (hb : decode b = i) (hi : commandKicks i = true)
    (S : Block) :
    (blockStep T S false (some b)).wdCnt = 0 ∧
      ((blockStep T S false (some b)).lDir, (blockStep T S false (some b)).rDir) =
        (commandPair i).getD (S.lDir, S.rDir) ∧
      (blockStep T S false (some b)).duty = (commandDuty i).getD S.duty := by
  rw [blockStep_byte, hb, hi]
  exact ⟨rfl, ticked_dirs_of_wdCnt_ne (Nat.ne_of_lt hT), rfl⟩

/-- No reset and no kick at a tick at which an idle tick would expire (R110, R112): the motors stop. -/
theorem blockStep_of_expiry {T : Nat} {S : Block} (h : T ≤ S.wdCnt + 1) {p : PortIn} (hp : p.quiet = true) :
    (blockStep T S p.rst p.cmd).wdCnt = T ∧ (blockStep T S p.rst p.cmd).Stopped ∧
      (blockStep T S p.rst p.cmd).duty = S.duty := by
  rw [blockStep, tick_of_quiet hp]
  exact ⟨min_eq_right h, ticked_stopped_of_wdCnt_eq (min_eq_right h), rfl⟩

/-- Settles O36: a kicking command clears the count before the watchdog looks at it, and any other tick here expires. -/
theorem commandAndExpiryAtOneTick : Obligations.CommandAndExpiryAtOneTick := by
  intro s hexpiry p rest hin
  refine ⟨_, step_of_inputs hin, fun hrst => ?reset, fun hrst hcmd => ?idle,
    fun b hrst hcmd => ⟨fun h => ?forward, fun h => ?backward, fun h => ?left, fun h => ?right, fun h => ?speed,
      fun h => ?quiet⟩⟩
  case reset =>
    rw [hrst]
    exact ⟨rfl, ⟨rfl, rfl⟩, rfl⟩
  case idle => exact blockStep_of_expiry hexpiry (quiet_iff.2 ⟨hrst, by rw [hcmd]; rfl⟩)
  case quiet =>
    refine blockStep_of_expiry hexpiry (quiet_iff.2 ⟨hrst, ?_⟩)
    rw [hcmd, Option.any_some, not_kickTag_of_tag_mem h]
  all_goals rw [hrst, hcmd]
  case forward => exact blockStep_of_kick wdPeriod_pos (i := .forward) (by simp [decode, h]) rfl s.block
  case backward => exact blockStep_of_kick wdPeriod_pos (i := .backward) (by simp [decode, h]) rfl s.block
  case left => exact blockStep_of_kick wdPeriod_pos (i := .left) (by simp [decode, h]) rfl s.block
  case right => exact blockStep_of_kick wdPeriod_pos (i := .right) (by simp [decode, h]) rfl s.block
  case speed =>
    obtain ⟨hwd, hdirs, hduty⟩ :=
      blockStep_of_kick wdPeriod_pos (b := b) (i := .setSpeed (speedBits b)) (by simp [decode, h]) rfl s.block
    exact ⟨hwd, hdirs, hduty.trans (speedBits_idem b)⟩

/-! ## Leaving expiry -/

/-- Settles O39: quiet runs start no motor; a kick clears the count and writes what its command writes, no old direction. -/
theorem onlyAKickOrResetLeavesExpiry : Obligations.OnlyAKickOrResetLeavesExpiry := by
  intro s hwd hS
  refine ⟨fun n hquiet => ?quiet, fun p hp => ?drive, fun v => ?speed, fun hrst => ?reset⟩
  case quiet =>
    have hins := quietFor_iff.1 hquiet
    rw [after_block_eq_runFunction]
    refine ⟨?_, stopped_run_of_quiet hins hS, duty_run_of_quiet hins⟩
    rw [wdCnt_run_of_quiet hins hwd.le, hwd]
    omega
  case drive =>
    have hdrives : Drives p.1 p.2.1 p.2.2 := by
      simp only [List.mem_cons, List.not_mem_nil, or_false] at hp
      rcases hp with rfl | rfl | rfl | rfl
      exacts [forward_drives, backward_drives, left_drives, right_drives]
    obtain ⟨t, ht, hl, hr, hduty, -, hcount⟩ := hdrives.completes s
    exact ⟨t, ht, hcount, hl, hr, hduty⟩
  case speed =>
    obtain ⟨t, ht, hduty, hl, hr, -, -, hcount⟩ := setSpeed_completes v s
    exact ⟨t, ht, hcount, ⟨hl.trans hS.1, hr.trans hS.2⟩, hduty⟩
  case reset =>
    refine ⟨_, step_eq_ticked s, ?_⟩
    rw [State.ticked, hrst]
    exact ⟨rfl, zero_ne_wdPeriod⟩

/-! ## The width of the counter -/

/-- Settles O42: `WD_W` is the number of binary digits of the period. -/
theorem watchdogCounterFitsItsWidth : Obligations.WatchdogCounterFitsItsWidth :=
  fun _ hT => ⟨fun _ hs => hs.trans_lt Nat.lt_log2_self, fun _ hw => (Nat.log2_lt (Nat.ne_of_gt hT)).2 hw⟩

end Sys2Proof.Machine

/-! SUPPORT. The duty and the PWM (spec/41_speed_command.md, spec/43_tick_step_and_pwm.md section 2). Without reset and `SetSpeed`
the duty and the enable stand and the count goes up by one; high ticks are counted over windows in which the count does not wrap. -/

namespace Sys2Proof.Machine

/-! ## The duty at a tick -/

/-- Settles O9: the enable pins are one comparison of two numbers, gated by the PWM enable. -/
theorem outputEquationsReadTheState : Obligations.OutputEquationsReadTheState :=
  fun s => ⟨rfl, rfl, rfl, rfl, rfl, pwmHigh_iff s⟩

/-- Settles O10: the tick of `SetSpeed` leaves the new duty beside the advanced count. -/
theorem newDutyShowsAtOnceOnBothEnablePins : Obligations.NewDutyShowsAtOnceOnBothEnablePins := by
  refine ⟨fun _ _ => rfl, fun s v => ⟨_, exec_setSpeed v s, ?_, rfl⟩⟩
  rw [← countPwm_toNat]
  exact pwmHigh_iff _

/-- Of the bytes `SetSpeed` alone writes the duty (R21, R81). -/
theorem portDuty_some_eq (b : Byte) : portDuty (some b) = if tag b = 5#3 then some (speedBits b) else none := by
  rw [portDuty_some]
  rcases decode_cases b with ⟨ht, hd⟩ | ⟨ht, hd⟩ | ⟨ht, hd⟩ | ⟨ht, hd⟩ | ⟨ht, hd⟩ | ⟨ht, hd⟩ | ⟨ht, hd⟩ | ⟨ht, hd⟩ <;>
    simp [ht, hd, commandDuty, dutyOperand, speedBits_idem]

theorem portDuty_of_no_setSpeed {cmd : Option Byte} (h : ∀ b ∈ cmd, tag b ∉ [5#3]) : portDuty cmd = none := by
  cases cmd with
  | none => rfl
  | some b => rw [portDuty_some_eq, if_neg (by simpa using h b rfl)]

/-- A tick reads the duty only to pass it on (R21). -/
theorem blockStep_congr_of_duty (T : Nat) (S : Block) (d : Byte) (rst : Bool) (cmd : Option Byte) :
    blockStep T { S with duty := d } rst cmd =
      { blockStep T S rst cmd with duty := (blockStep T { S with duty := d } rst cmd).duty } := by
  cases rst with
  | true => rfl
  | false =>
    rw [blockStep, blockStep, tickWithKicks_no_reset, tickWithKicks_no_reset]
    rfl

/-- Settles O44: the tick's write is the only one, and only the comparison of R32 looks at the duty. -/
theorem dutyIsWrittenBySetSpeedAndReadByPwmOnly : Obligations.DutyIsWrittenBySetSpeedAndReadByPwmOnly := by
  refine ⟨fun s t ht => ?written, fun s t u d ht hu => ?read, fun b d => rfl⟩
  case written =>
    rw [eq_ticked_of_step ht, State.ticked]
    cases s.portIn.rst with
    | true => rfl
    | false =>
      rw [blockStep, tickWithKicks_no_reset, ticked_duty]
      cases s.portIn.cmd with
      | none => rfl
      | some b =>
        rw [portDuty_some_eq]
        split <;> simp_all [speedBits]
  case read =>
    rw [eq_ticked_of_step ht, eq_ticked_of_step hu]
    exact congrArg (State.mk · s.inputs.tail) (blockStep_congr_of_duty _ s.block d _ _)

/-! ## Runs without reset or `SetSpeed` -/

section hypotheses

variable {s : State} {tags : List (BitVec 3)} {m n : Nat}

theorem noTagFor_mono (h : s.NoTagFor tags n) (hmn : m ≤ n) : s.NoTagFor tags m :=
  fun k hk => h k (hk.trans_le hmn)

theorem noTagFor_after (h : s.NoTagFor tags (m + n)) : (s.after m).NoTagFor tags n := by
  intro k hk
  rw [inputAt_after]
  exact h (m + k) (Nat.add_lt_add_left hk m)

theorem noResetFor_of_noTagFor (h : s.NoTagFor tags n) : s.NoResetFor n := fun k hk => (h k hk).1

/-- A tick without reset, by its ports (R90). -/
theorem after_succ_block_of_no_reset (h : (s.inputAt n).rst = false) :
    (s.after (n + 1)).block =
      (s.after n).block.ticked Config.wdPeriod ((s.inputAt n).cmd.any kickTag) (portPair (s.inputAt n).cmd)
        (portDuty (s.inputAt n).cmd) := by
  rw [after_succ_block, h, blockStep, tickWithKicks_no_reset]

theorem duty_after (h : s.NoTagFor [5#3] n) : (s.after n).block.duty = s.block.duty := by
  induction n with
  | zero => rfl
  | succ n ih =>
    obtain ⟨hrst, htag⟩ := h n (Nat.lt_succ_self n)
    rw [after_succ_block_of_no_reset hrst, ticked_duty, portDuty_of_no_setSpeed htag]
    exact ih (noTagFor_mono h n.le_succ)

theorem duty_after_setSpeed {b : Byte} (hrst : (s.inputAt m).rst = false) (hcmd : (s.inputAt m).cmd = some b)
    (htag : tag b = 5#3) : (s.after (m + 1)).block.duty = speedBits b := by
  rw [after_succ_block_of_no_reset hrst, ticked_duty, hcmd, portDuty_some_eq, if_pos htag, Option.getD_some]

theorem duty_after_reset (hrst : (s.inputAt m).rst = true) : (s.after (m + 1)).block.duty = 0#8 := by
  rw [after_succ_block, hrst]
  rfl

theorem pwmEn_after (h : s.NoResetFor n) : (s.after n).block.pwmEn = s.block.pwmEn := by
  induction n with
  | zero => rfl
  | succ n ih =>
    rw [after_succ_block_of_no_reset (h n n.lt_succ_self), ticked_pwmEn]
    exact ih fun k hk => h k (hk.trans n.lt_succ_self)

theorem pwmCnt_after (h : s.NoResetFor n) : (s.after n).block.pwmCnt.toNat = (s.block.pwmCnt.toNat + n) % 256 := by
  induction n with
  | zero => exact (Nat.mod_eq_of_lt s.block.pwmCnt.isLt).symm
  | succ n ih =>
    rw [after_succ_block_of_no_reset (h n n.lt_succ_self), ticked_pwmCnt_toNat,
      ih fun k hk => h k (hk.trans n.lt_succ_self), Nat.mod_add_mod, Nat.add_assoc]

end hypotheses

/-- Settles O45: the last write of the duty stands, and no tick after it writes again. -/
theorem dutyIsTheLastSpeedSet : Obligations.DutyIsTheLastSpeedSet := by
  refine fun s m n => ⟨duty_after, fun b hrst hcmd htag h => ?_, fun hrst h => ?_⟩
  · rw [after_add, duty_after h, duty_after_setSpeed hrst hcmd htag]
  · rw [after_add, duty_after h, duty_after_reset hrst]

/-- Settles O47: by induction on the ticks. -/
theorem pwmCountAdvancesEveryTick : Obligations.PwmCountAdvancesEveryTick := by
  refine fun s n h => ⟨pwmCnt_after h, fun hreset => ?_⟩
  rw [pwmCnt_after h, hreset, reset_block, reset_pwmCnt, BitVec.toNat_zero, Nat.zero_add]

/-! ## High ticks -/

/-- The high ticks of a window are those of its two parts. -/
theorem enableHighCount_add (s : State) (m n : Nat) :
    s.enableHighCount (m + n) = s.enableHighCount m + (s.after m).enableHighCount n := by
  simp [State.enableHighCount, List.range_add, List.filter_map, Function.comp_def, after_add]

theorem enableHighCount_one (s : State) : s.enableHighCount 1 = if s.block.pwmHigh then 1 else 0 := by
  unfold State.enableHighCount
  cases h : s.block.pwmHigh <;> simp [State.after, h]

/-- While the PWM count does not wrap, the enable pin is high until the count reaches the duty (R32, R96). -/
theorem enableHighCount_of_no_wrap {s : State} {n : Nat} (hen : s.block.pwmEn = true) (h : s.NoTagFor [5#3] (n - 1))
    (hwrap : s.block.pwmCnt.toNat + n ≤ 256) :
    s.enableHighCount n = min n (s.block.duty.toNat - s.block.pwmCnt.toNat) := by
  induction n with
  | zero => simp [State.enableHighCount]
  | succ n ih =>
    rw [Nat.add_sub_cancel] at h
    have hhigh : (s.after n).block.pwmHigh = true ↔ s.block.pwmCnt.toNat + n < s.block.duty.toNat := by
      rw [pwmHigh_iff, pwmEn_after (noResetFor_of_noTagFor h), pwmCnt_after (noResetFor_of_noTagFor h), duty_after h,
        Nat.mod_eq_of_lt (by omega)]
      exact and_iff_right hen
    rw [enableHighCount_add, ih (noTagFor_mono h n.pred_le) (by omega), enableHighCount_one]
    simp only [hhigh]
    split <;> omega

/-- Settles O48: the window is cut where the count wraps, and neither part wraps. -/
theorem enableIsHighForDutyTicksOfEveryPeriod : Obligations.EnableIsHighForDutyTicksOfEveryPeriod := by
  intro s hen h
  have hc : s.block.pwmCnt.toNat < 256 := s.block.pwmCnt.isLt
  have hd : s.block.duty.toNat < 256 := s.block.duty.isLt
  generalize hcnt : s.block.pwmCnt.toNat = c at hc
  -- With the count at 0 there is no wrap, and no tick before one to speak of.
  rcases Nat.eq_zero_or_pos c with rfl | hpos
  · rw [enableHighCount_of_no_wrap hen h (by omega), hcnt]
    omega
  · have hfirst : s.NoTagFor [5#3] (256 - c) := noTagFor_mono h (by omega)
    have hsecond : (s.after (256 - c)).NoTagFor [5#3] (c - 1) := noTagFor_after (noTagFor_mono h (by omega))
    have hen' : (s.after (256 - c)).block.pwmEn = true := (pwmEn_after (noResetFor_of_noTagFor hfirst)).trans hen
    have hcnt' : (s.after (256 - c)).block.pwmCnt.toNat = 0 := by
      rw [pwmCnt_after (noResetFor_of_noTagFor hfirst), hcnt]
      omega
    have hsplit : 256 = (256 - c) + c := by omega
    rw [hsplit, enableHighCount_add, enableHighCount_of_no_wrap hen (noTagFor_mono hfirst (Nat.sub_le _ 1)) (by omega),
      enableHighCount_of_no_wrap hen' hsecond (by omega), duty_after hfirst, hcnt, hcnt']
    omega

/-- Settles O49: the window is cut at the tick that changes the duty. -/
theorem dutyChangeInsideAPeriod : Obligations.DutyChangeInsideAPeriod := by
  intro s k b hen hcnt hk hbefore hin htag hafter
  have hcnt0 : s.block.pwmCnt.toNat = 0 := by rw [hcnt]; rfl
  have hrst : (s.inputAt k).rst = false := by rw [hin]; rfl
  have hreset : s.NoResetFor (k + 1) := Nat.forall_lt_succ_right.2 ⟨noResetFor_of_noTagFor hbefore, hrst⟩
  have hen' : (s.after (k + 1)).block.pwmEn = true := (pwmEn_after hreset).trans hen
  have hcnt' : (s.after (k + 1)).block.pwmCnt.toNat = k + 1 := by
    rw [pwmCnt_after hreset, hcnt0]
    omega
  have hduty' : (s.after (k + 1)).block.duty = speedBits b := duty_after_setSpeed hrst (by rw [hin]; rfl) htag
  have hd' : (speedBits b).toNat < 256 := (speedBits b).isLt
  have hsplit : 256 = (k + 1) + (255 - k) := by omega
  have hlast : 255 - k - 1 = 254 - k := by omega
  rw [hsplit, enableHighCount_add, enableHighCount_of_no_wrap (n := k + 1) hen hbefore (by omega),
    enableHighCount_of_no_wrap hen' (hlast ▸ hafter) (by omega), hcnt0, hcnt', hduty']
  omega

/-! ## Noninterference -/

/-- Equal directions and watchdog counts, whatever the duties and the PWM (R76, R98). -/
def SameDirections (S S' : Block) : Prop := S.lDir = S'.lDir ∧ S.rDir = S'.rDir ∧ S.wdCnt = S'.wdCnt

/-- Equal duties and PWM registers, whatever the directions and the watchdogs (R76, R98). -/
def SamePwm (S S' : Block) : Prop := S.duty = S'.duty ∧ S.pwmEn = S'.pwmEn ∧ S.pwmCnt = S'.pwmCnt

theorem tickWithKicks_sameDirections {kicks : Byte → Bool} {T : Nat} (p : PortIn) {S S' : Block}
    (h : SameDirections S S') :
    SameDirections (tickWithKicks kicks T S p.rst p.cmd) (tickWithKicks kicks T S' p.rst p.cmd) := by
  obtain ⟨hl, hr, hwd⟩ := h
  cases p.rst with
  | true => exact ⟨rfl, rfl, rfl⟩
  | false =>
    rw [tickWithKicks_no_reset, tickWithKicks_no_reset]
    generalize p.cmd.any kicks = kick, portPair p.cmd = pair, portDuty p.cmd = duty
    have hwd' : (S.ticked T kick pair duty).wdCnt = (S'.ticked T kick pair duty).wdCnt := by simp [hwd]
    refine ⟨?_, ?_, hwd'⟩
    · rw [ticked_lDir, ticked_lDir, hwd', hl, hr]
    · rw [ticked_rDir, ticked_rDir, hwd', hl, hr]

theorem tickWithKicks_samePwm {kicks : Byte → Bool} {T : Nat} (p : PortIn) {S S' : Block} (h : SamePwm S S') :
    SamePwm (tickWithKicks kicks T S p.rst p.cmd) (tickWithKicks kicks T S' p.rst p.cmd) := by
  obtain ⟨hduty, hen, hcnt⟩ := h
  cases p.rst with
  | true => exact ⟨rfl, rfl, rfl⟩
  | false => simp [SamePwm, tickWithKicks_no_reset, hduty, hen, hcnt]

theorem pwmHigh_congr {S S' : Block} (h : SamePwm S S') : S.pwmHigh = S'.pwmHigh := by
  obtain ⟨hduty, hen, hcnt⟩ := h
  rw [Block.pwmHigh, Block.pwmHigh, hduty, hen, hcnt]

/-- Settles O50: each half of the registers evolves by itself under equal inputs. -/
theorem directionAndSpeedDoNotInterfere : Obligations.DirectionAndSpeedDoNotInterfere := by
  refine fun s s' hin => ⟨fun hl hr hwd n => ?_, fun hduty hen hcnt n => ?_⟩
  · have hsame : SameDirections (s.after n).block (s'.after n).block :=
      after_keeps_rel hin (fun p _ _ => tickWithKicks_sameDirections p) ⟨hl, hr, hwd⟩ n
    exact ⟨hsame.1, hsame.2.1⟩
  · have hsame : SamePwm (s.after n).block (s'.after n).block :=
      after_keeps_rel hin (fun p _ _ => tickWithKicks_samePwm p) ⟨hduty, hen, hcnt⟩ n
    exact ⟨pwmHigh_congr hsame, pwmHigh_congr hsame⟩

end Sys2Proof.Machine

/-! SUPPORT. The reset state, the invariant of the reachable states (spec/10_state.md R35), and what commands leave unchanged. -/

namespace Sys2Proof.Machine

/-! ## Reset -/

/-- Settles O30: the record of R34, field by field. -/
theorem resetStateAndItsPins : Obligations.ResetStateAndItsPins :=
  ⟨rfl, rfl, rfl, rfl, rfl, rfl, rfl⟩

/-- Settles O33: the reset count is below every period, so the fail-safe has nothing to say of it. -/
theorem resetMeetsTheInvariant : Obligations.ResetMeetsTheInvariant := fun T hT =>
  { pair := by simp [Block.LegalPair]
    duty := rfl
    enabled := rfl
    count := Nat.zero_le T
    failSafe := fun h => absurd h (Nat.ne_of_lt hT)
    enables := rfl }

/-! ## The invariant of the reachable states -/

/-- What a command leaves in place of a legal pair is a legal pair (R75). -/
theorem commandPair_getD_legal {S : Block} (hS : S.LegalPair) (i : Instr) (S' : Block)
    (h : (S'.lDir, S'.rDir) = (commandPair i).getD (S.lDir, S.rDir)) : S'.LegalPair := by
  unfold Block.LegalPair
  rw [h]
  cases i with
  | setSpeed v => exact hS
  | reserved6 | reserved7 => exact hS
  | _ => simp [commandPair]

theorem portPair_getD_legal {S : Block} (hS : S.LegalPair) (cmd : Option Byte) (S' : Block)
    (h : (S'.lDir, S'.rDir) = (portPair cmd).getD (S.lDir, S.rDir)) : S'.LegalPair := by
  cases cmd with
  | none => exact commandPair_getD_legal hS .reserved6 S' h
  | some b => exact commandPair_getD_legal hS (decode b) S' h

theorem legalPair_of_stopped {S : Block} (h : S.Stopped) : S.LegalPair := by
  unfold Block.LegalPair
  rw [stopped_iff.1 h]
  decide

/-- What a command leaves in place of a multiple of 8 is a multiple of 8 (R35 (c), R81). -/
theorem portDuty_getD_and_seven {d : Byte} (hd : d &&& 7#8 = 0#8) (cmd : Option Byte) :
    (portDuty cmd).getD d &&& 7#8 = 0#8 := by
  cases cmd with
  | none => exact hd
  | some b =>
    rw [portDuty_some_eq]
    split
    · exact speedBits_and_seven b
    · exact hd

/-- The tick function keeps the invariant, at any legal period and with any kick set (R35). -/
theorem tickWithKicks_inv {kicks : Byte → Bool} {T : Nat} (hT : 1 ≤ T) {S : Block} (hS : S.Inv T) (rst : Bool)
    (cmd : Option Byte) : (tickWithKicks kicks T S rst cmd).Inv T := by
  have hsafe : (tickWithKicks kicks T S rst cmd).FailSafe T := tickWithKicks_failSafe S rst cmd
  have hcount : (tickWithKicks kicks T S rst cmd).wdCnt ≤ T := tickWithKicks_wdCnt_le kicks T S rst cmd
  cases rst with
  | true => exact resetMeetsTheInvariant T hT
  | false =>
    rw [tickWithKicks_no_reset] at hsafe hcount ⊢
    refine ⟨?pair, portDuty_getD_and_seven hS.duty cmd, hS.enabled, hcount, hsafe, rfl⟩
    by_cases hwd : (S.ticked T (cmd.any kicks) (portPair cmd) (portDuty cmd)).wdCnt = T
    · exact legalPair_of_stopped (hsafe hwd)
    · exact portPair_getD_legal hS.pair cmd _ (ticked_dirs_of_wdCnt_ne hwd)

/-- Settles O32: a step is the tick function, which keeps each item. -/
theorem everyStepKeepsTheInvariant : Obligations.EveryStepKeepsTheInvariant := by
  intro s t hs hstep
  rw [eq_ticked_of_step hstep]
  exact tickWithKicks_inv wdPeriod_pos hs _ _

/-! ## The pins after reset -/

/-- The inputs of a run are those listed and silence, so what holds of both holds of all. -/
theorem forall_inputsFor {P : PortIn → Prop} {s : State} {n : Nat} (hidle : P .idle) (h : ∀ p ∈ s.inputs.take n, P p) :
    ∀ p ∈ s.inputsFor n, P p := by
  intro p hp
  rcases mem_take_or_idle_of_mem_inputsFor hp with hlist | rfl
  · exact h p hlist
  · exact hidle

/-- Stopped motors stay stopped over reset and over every byte that drives none (R125). -/
theorem stopped_of_not_drive {kicks : Byte → Bool} {T : Nat} {S : Block} {p : PortIn}
    (hp : p.rst = false → ∀ b ∈ p.cmd, tag b ∉ [0#3, 1#3, 2#3, 3#3]) (hS : S.Stopped) :
    (tickWithKicks kicks T S p.rst p.cmd).Stopped := by
  cases hrst : p.rst with
  | true => exact ⟨rfl, rfl⟩
  | false =>
    rw [tickWithKicks_no_reset]
    apply ticked_stopped
    cases hcmd : p.cmd with
    | none => exact stopped_iff.1 hS
    | some b =>
      rw [portPair_some, commandPair_of_not_drive (hp hrst b hcmd)]
      split
      · rfl
      · exact stopped_iff.1 hS

/-- Duty 0 stays over reset and over every byte that sets no other (R99). -/
theorem duty_zero_of_no_speed {kicks : Byte → Bool} {T : Nat} {S : Block} {p : PortIn}
    (hp : p.rst = false → ∀ b ∈ p.cmd, tag b = 5#3 → speedBits b = 0#8) (hS : S.duty = 0#8) :
    (tickWithKicks kicks T S p.rst p.cmd).duty = 0#8 := by
  cases hrst : p.rst with
  | true => rfl
  | false =>
    rw [tickWithKicks_no_reset, ticked_duty]
    cases hcmd : p.cmd with
    | none => exact hS
    | some b =>
      rw [portDuty_some_eq]
      split
      · next htag => exact hp hrst b hcmd htag
      · exact hS

/-- Settles O31: from reset on, stopped motors and duty 0 are kept by the inputs named, and each keeps its pins low. -/
theorem pinsStayLowAfterReset : Obligations.PinsStayLowAfterReset := by
  refine fun ins n => ⟨fun h => ?directions, fun h => ?enables⟩ <;> rw [after_block_eq_runFunction]
  case directions =>
    have hins := forall_inputsFor (s := ⟨.reset, ins⟩) (by rintro - b ⟨⟩) h
    obtain ⟨hl, hr⟩ := runFunction_keeps (kicks := kickTag) (T := Config.wdPeriod) (P := Block.Stopped)
      (fun p hp _ => stopped_of_not_drive (hins p hp)) ⟨reset_lDir, reset_rDir⟩
    simp [Pins.DirectionLow, hl, hr, DirReg.stopped]
  case enables =>
    have hins := forall_inputsFor (s := ⟨.reset, ins⟩) (by rintro - b ⟨⟩) h
    have hduty := runFunction_keeps (kicks := kickTag) (T := Config.wdPeriod) (P := fun S => S.duty = 0#8)
      (fun p hp _ => duty_zero_of_no_speed (hins p hp)) reset_duty
    exact ⟨pwmHigh_of_duty_zero hduty, pwmHigh_of_duty_zero hduty⟩

/-! ## Frames -/

/-- What every command keeps and counts (R90): all but the motor registers. -/
theorem exec_frame {i : Instr} {s t : State} (h : exec i s = .next t) :
    t.block.duty = (commandDuty i).getD s.block.duty ∧ t.block.pwmEn = s.block.pwmEn ∧ t.inputs = s.inputs ∧
      t.block.pwmCnt.toNat = (s.block.pwmCnt.toNat + 1) % 256 ∧
      t.block.wdCnt = if commandKicks i then 0 else min (s.block.wdCnt + 1) Config.wdPeriod := by
  rw [exec_eq_ticked] at h
  cases h
  exact ⟨rfl, rfl, rfl, ticked_pwmCnt_toNat .., rfl⟩

/-- Settles O19: none of the five writes a duty, and all but `Stop` kick. -/
theorem directionCommandsFrame : Obligations.DirectionCommandsFrame := by
  intro i hi s t h
  have hframe := exec_frame h
  simp only [List.mem_cons, List.not_mem_nil, or_false] at hi
  rcases hi with rfl | rfl | rfl | rfl | rfl <;> exact hframe

/-- Settles O20: the tick of `SetSpeed` kicks, so no expiry touches the directions. -/
theorem setSpeedFrame : Obligations.SetSpeedFrame := by
  intro v s t h
  obtain ⟨-, hen, hin, hcnt, hwd⟩ := exec_frame h
  rw [exec_setSpeed] at h
  cases h
  exact ⟨rfl, rfl, hen, hin, hcnt, hwd⟩

/-- Settles O21: both reserved tags are idle ticks. -/
theorem reservedCommandsFrame : Obligations.ReservedCommandsFrame := by
  intro i hi s t h
  have hidles : Idles i := by
    simp only [List.mem_cons, List.not_mem_nil, or_false] at hi
    rcases hi with rfl | rfl
    exacts [reserved6_idles, reserved7_idles]
  obtain ⟨t', ht', hblock, hduty, hen, hwd, -, -⟩ := hidles.completes s
  obtain ⟨-, -, hin, hcnt, -⟩ := exec_frame h
  obtain rfl : t' = t := Host.Outcome.next.inj (ht'.symm.trans h)
  refine ⟨hduty, hen, hin, hcnt, hwd, ?_, ?_⟩ <;> rw [hblock, idleTick_eq_ticked]
  · exact ticked_lDir ..
  · exact ticked_rDir ..

/-! ## A command twice -/

/-- A driving command writes constants, so a second one writes the same (R70 to R73). -/
theorem Drives.idempotent {i : Instr} {l r : DirReg} (h : Drives i l r) (s : State) :
    ∃ t u, exec i s = .next t ∧ exec i t = .next u ∧ u.block.lDir = t.block.lDir ∧ u.block.rDir = t.block.rDir ∧
      u.block.duty = t.block.duty :=
  ⟨_, _, h s, h _, rfl, rfl, rfl⟩

/-- Settles O51: a driving command writes constants, `Stop` does, and `SetSpeed` writes a constant duty and no direction. -/
theorem directivesAreIdempotent : Obligations.DirectivesAreIdempotent := by
  intro i s hi
  cases i with
  | forward => exact forward_drives.idempotent s
  | backward => exact backward_drives.idempotent s
  | left => exact left_drives.idempotent s
  | right => exact right_drives.idempotent s
  | stop => exact ⟨_, _, exec_stop s, exec_stop _, by simp, by simp, by simp⟩
  | setSpeed v => exact ⟨_, _, exec_setSpeed v s, exec_setSpeed v _, rfl, rfl, rfl⟩
  | reserved6 | reserved7 => cases hi

/-! ## The reserved example -/

/-- Settles O52: after the kick of `Forward` the reserved tick counts 1, which is the period exactly when the period is 1. -/
theorem reservedByteAfterForward : Obligations.ReservedByteAfterForward := by
  intro s
  obtain ⟨t, ht, hl, hr, -, -, hwd⟩ := forward_drives.completes s
  obtain ⟨u, hu, -, -, -, -, hl', hr'⟩ := reserved6_idles.completes t
  refine ⟨t, u, ht, hu, ?_⟩
  have hone : Config.wdPeriod ≤ t.block.wdCnt + 1 ↔ Config.wdPeriod = 1 := by
    have hpos := wdPeriod_pos
    omega
  simp only [hone] at hl' hr'
  rw [pins_lDa, pins_lDb, pins_rDa, pins_rDb, hl', hr', hl, hr]
  split <;> rfl

end Sys2Proof.Machine
